-- ==== Sys2Proof/Word.lean ====
section
/-! DEFINITION. The three widths of the block: a 64-bit register word, a 128-bit subscalar, a 256-bit scalar or
field-element slot (00_scope.md R8, R10; 10_state.md R42 to R46). -/

namespace Sys2Proof

/-- One 64-bit register of the window, and one command word (R81, R110). -/
abbrev Word := BitVec 64

/-- A subscalar, the source's `ufp`: all its arithmetic is modulo 2^128 (R11, R43). -/
abbrev U128 := BitVec 128

/-- A scalar register, or a field-element slot: four words, word 0 least significant (R10, R42, R84). -/
abbrev U256 := BitVec 256

end Sys2Proof
end

