-- ==== Sys2Proof/Config.lean ====
section
/-! DEFINITION. What the machine takes as configuration: the curve layer's capabilities and constants and the other
parameters the spec leaves OPEN (00_scope.md R9, R17 to R27; 10_state.md R61), gathered in one record type, and the
one configuration the machine runs at, of which nothing can be proved. -/

namespace Sys2Proof

/-- An affine point as it stands in the host registers: two 256-bit slots, their bits never interpreted (R14, R84). -/
structure Aff where
  x : U256
  y : U256
deriving DecidableEq, Repr, Inhabited

/-- The parameters of the model (R9), over the type `Ext` of extended-point representations, itself one of them (R9,
R14, R47). Ext is any type: nothing of it is used but that a value is kept, copied and given to a capability. Each
capability is a total function of its operands and nothing else
(00_scope.md section 6); the properties a claim may assume of them (R28 to R33) are hypotheses, stated in
Machine/Properties.lean, and no part of this record. -/
structure Params (Ext : Type) where
  /-- `gls_decompose` (R23): (asign, a, bsign, b) in that order. -/
  decompose : U256 → Bool × U128 × Bool × U128
  /-- `gls_morph` (R24): the endomorphism on affine coordinates. -/
  morph : Aff → Aff
  /-- `ec_expand` (R22). -/
  expand : Aff → Ext
  /-- `ec_affine` (R22). -/
  affine : Ext → Aff
  /-- `ec_neg` (R18). -/
  neg : Ext → Ext
  /-- `ec_add` (R19); its flag arguments change no result (I7). -/
  add : Ext → Ext → Ext
  /-- `ec_dbl` (R20); `last` and `t2b` change no result (I7). -/
  dbl : Ext → Ext
  /-- The fixed generator G (R27). -/
  generator : Aff
  /-- The prime order q of the subgroup (R27). -/
  q : Nat
  /-- The endomorphism's eigenvalue λ modulo q (R9, R31), as a natural number (DESIGN CHOICE, safe: log 25). -/
  eigenvalue : Nat
  /-- FE_BITS, the width of a field-element encoding, at most 256 (R9, R84). -/
  feBits : Fin 257
  /-- ADD_COMPLETE: whether `add` is the group law on every valid input (R9, R30). -/
  addComplete : Bool
  /-- LAT(opc): cycles of a command that completes with E_OK, "a fixed positive count" (R319). -/
  latency : BitVec 8 → ℕ+
  /-- LAT_ERR: cycles of a command that completes with an error (R319). -/
  latencyError : ℕ+
  /-- BASE_ADDR: where the host places the 4 KiB window (R9, R80). -/
  baseAddr : Nat
deriving Inhabited

/-- Which names of points, beside one that always occurs, occur at the machine's own Ext. Unknown. -/
opaque Config.isPoint : Nat → Bool

/-- The machine's own Ext: an unknown, non-empty set of names, finite or not, a value known by its name alone. State
has to be plain data that can be compared, so the names are countably many (DESIGN CHOICE, safe: log 1); the commands
themselves are written for any Ext (Machine/Execute.lean). -/
structure Config.Ext where
  name : Option { n : Nat // Config.isPoint n = true }
deriving DecidableEq, Repr, Inhabited

/-- The configuration the machine runs at: an unknown constant. Whatever is proved of the machine holds for every
configuration (log 2). -/
opaque Config.params : Params Config.Ext

end Sys2Proof
end

