-- ==== Sys2Proof/Syntax.lean ====
section
/-! DEFINITION. The command set SNOWCORE revision 1 as syntax: one constructor per row of the opcode map
(30_encoding.md R114), each with exactly the operand fields the row uses (R111, R113, R118). -/

namespace Sys2Proof

/-- S = w[21]: which scalar register MASK and DECOMP work on (R118). -/
inductive ScalarSel where
  | ka  -- S = 0
  | kb  -- S = 1
deriving DecidableEq, Repr, Inhabited

/-- D = w[20]: the destination of SEL2 and SEL4 (R118). -/
inductive PointDest where
  | x  -- D = 0, PR12
  | y  -- D = 1, PR13
deriving DecidableEq, Repr, Inhabited

/-- A command. `idx` is IDX, `d` is D, `s` is S, `e` is E, `phi` is PHI, `src` is AS and `psrc` is PSRC, each at the
width the command word gives it, so that the reserved values AS = 3 and PSRC = 14, 15 (R116) are terms that
`wellFormed` refuses. -/
inductive Instr where
  | nop
  | mask (s : ScalarSel)
  | mul
  | mulGen
  | simul
  | scrub
  | decomp (s : ScalarSel)
  | base (e : BitVec 2) (phi : Bool) (src : BitVec 2)
  | gent2
  | gent4
  | recode2
  | recode4
  | sel2 (idx : BitVec 7) (d : PointDest)
  | sel4 (idx : BitVec 7) (d : PointDest)
  | ladder2
  | ladder4
  | dbl
  | add
  | correct
  | cofactor
  | affine (psrc : BitVec 4)
deriving DecidableEq, Repr, Inhabited

end Sys2Proof
end

