-- ==== Sys2Proof/WellFormed.lean ====
section
/-! DEFINITION. Which commands are well formed: the two reserved field values of 30_encoding.md R116 are refused;
"No other field value is reserved". -/

namespace Sys2Proof

/-- R116: in BASE, AS = 3 names no source; in AFFINE, PSRC = 14 or 15 names a reserved point register. Every other
field value is legal (R117 for IDX). -/
def wellFormed : Instr → Bool
  | .base _ _ src => src != 3#2
  | .affine psrc => psrc < 14#4
  | .nop | .mask _ | .mul | .mulGen | .simul | .scrub | .decomp _ | .gent2 | .gent4 | .recode2 | .recode4
  | .sel2 _ _ | .sel4 _ _ | .ladder2 | .ladder4 | .dbl | .add | .correct | .cofactor => true

end Sys2Proof
end

