-- ==== Sys2Proof/Decode.lean ====
section
/-! DEFINITION. The command word: the opcode map of 30_encoding.md R114, the total decoder of R120, and the encoder
written from the same tables (R111, R114). -/

namespace Sys2Proof

/-- The 21 assigned opcodes (R114). -/
inductive Opcode where
  | NOP | MASK | MUL | MUL_GEN | SIMUL | SCRUB | DECOMP | BASE | GENT2 | GENT4 | RECODE2 | RECODE4 | SEL2 | SEL4
  | LADDER2 | LADDER4 | DBL | ADD | CORRECT | COFACTOR | AFFINE
deriving DecidableEq, Repr, Inhabited

/-- One row of the opcode map: OPC, mask and match as R114 prints them. -/
structure OpRow where
  op : Opcode
  opc : BitVec 8
  mask : Word
  pattern : Word
deriving DecidableEq, Repr, Inhabited

/-- The opcode map of R114, row by row. -/
def opTable : List OpRow :=
  [⟨.NOP,      0x00, 0xFFFFFFFFFFFFFFFF, 0x0000000000000000⟩,
   ⟨.MASK,     0x01, 0xFFFFFFFFFFDFFFFF, 0x0000000000000001⟩,
   ⟨.MUL,      0x02, 0xFFFFFFFFFFFFFFFF, 0x0000000000000002⟩,
   ⟨.MUL_GEN,  0x03, 0xFFFFFFFFFFFFFFFF, 0x0000000000000003⟩,
   ⟨.SIMUL,    0x04, 0xFFFFFFFFFFFFFFFF, 0x0000000000000004⟩,
   ⟨.SCRUB,    0x08, 0xFFFFFFFFFFFFFFFF, 0x0000000000000008⟩,
   ⟨.DECOMP,   0x10, 0xFFFFFFFFFFDFFFFF, 0x0000000000000010⟩,
   ⟨.BASE,     0x11, 0xFFFFFFFFF83FFFFF, 0x0000000000000011⟩,
   ⟨.GENT2,    0x12, 0xFFFFFFFFFFFFFFFF, 0x0000000000000012⟩,
   ⟨.GENT4,    0x13, 0xFFFFFFFFFFFFFFFF, 0x0000000000000013⟩] ++
  [⟨.RECODE2,  0x14, 0xFFFFFFFFFFFFFFFF, 0x0000000000000014⟩,
   ⟨.RECODE4,  0x15, 0xFFFFFFFFFFFFFFFF, 0x0000000000000015⟩,
   ⟨.SEL2,     0x16, 0xFFFFFFFFFFEF80FF, 0x0000000000000016⟩,
   ⟨.SEL4,     0x17, 0xFFFFFFFFFFEF80FF, 0x0000000000000017⟩,
   ⟨.LADDER2,  0x18, 0xFFFFFFFFFFFFFFFF, 0x0000000000000018⟩,
   ⟨.LADDER4,  0x19, 0xFFFFFFFFFFFFFFFF, 0x0000000000000019⟩,
   ⟨.DBL,      0x1A, 0xFFFFFFFFFFFFFFFF, 0x000000000000001A⟩,
   ⟨.ADD,      0x1B, 0xFFFFFFFFFFFFFFFF, 0x000000000000001B⟩,
   ⟨.CORRECT,  0x1C, 0xFFFFFFFFFFFFFFFF, 0x000000000000001C⟩,
   ⟨.COFACTOR, 0x1D, 0xFFFFFFFFFFFFFFFF, 0x000000000000001D⟩,
   ⟨.AFFINE,   0x1E, 0xFFFFFFFFFFF0FFFF, 0x000000000000001E⟩]

/-- Why a word is illegal (R112, R115, R113, in the order R120 tests them). -/
inductive IllegalCause where
  | reservedBits      -- w[63:27] or w[15] not 0
  | unassignedOpcode  -- OPC not in R114
  | unusedField       -- a field the opcode does not use is not 0
deriving DecidableEq, Repr, Inhabited

/-- Which reserved field value a word holds (R116). -/
inductive FieldCause where
  | affineSource   -- BASE with AS = 3
  | pointRegister  -- AFFINE with PSRC = 14 or 15
deriving DecidableEq, Repr, Inhabited

/-- The answer of the decoder: `Cmd`, `Illegal` or `FieldErr` of R120. -/
inductive Decoded where
  | cmd (i : Instr)
  | illegal (why : IllegalCause)
  | fieldErr (why : FieldCause)
deriving DecidableEq, Repr, Inhabited

/-- The fields of the command word (R111). -/
def fieldOpc (w : Word) : BitVec 8 := w.extractLsb' 0 8
def fieldIdx (w : Word) : BitVec 7 := w.extractLsb' 8 7
def fieldPsrc (w : Word) : BitVec 4 := w.extractLsb' 16 4
def fieldE (w : Word) : BitVec 2 := w.extractLsb' 22 2
def fieldPhi (w : Word) : Bool := w.getLsbD 24
def fieldAs (w : Word) : BitVec 2 := w.extractLsb' 25 2

/-- S = w[21] (R118). -/
def fieldS (w : Word) : ScalarSel := if w.getLsbD 21 then .kb else .ka

/-- D = w[20] (R118). -/
def fieldD (w : Word) : PointDest := if w.getLsbD 20 then .y else .x

/-- The command an opcode and the fields of its word name (R118, R120's last line). -/
def instrOf (w : Word) : Opcode → Instr
  | .NOP => .nop
  | .MASK => .mask (fieldS w)
  | .MUL => .mul
  | .MUL_GEN => .mulGen
  | .SIMUL => .simul
  | .SCRUB => .scrub
  | .DECOMP => .decomp (fieldS w)
  | .BASE => .base (fieldE w) (fieldPhi w) (fieldAs w)
  | .GENT2 => .gent2
  | .GENT4 => .gent4
  | .RECODE2 => .recode2
  | .RECODE4 => .recode4
  | .SEL2 => .sel2 (fieldIdx w) (fieldD w)
  | .SEL4 => .sel4 (fieldIdx w) (fieldD w)
  | .LADDER2 => .ladder2
  | .LADDER4 => .ladder4
  | .DBL => .dbl
  | .ADD => .add
  | .CORRECT => .correct
  | .COFACTOR => .cofactor
  | .AFFINE => .affine (fieldPsrc w)

/-- R115: the row of an assigned OPC value, none for an unassigned one. -/
def rowOf (opc : BitVec 8) : Option OpRow := opTable.find? (fun r => r.opc == opc)

/-- Decoding, total on every 64-bit word, the tests in the order of R120. -/
def decode (w : Word) : Decoded :=
  if w.extractLsb' 27 37 != 0#37 || w.getLsbD 15 then .illegal .reservedBits
  else match rowOf (fieldOpc w) with
    | none => .illegal .unassignedOpcode
    | some r =>
      if w &&& r.mask != r.pattern then .illegal .unusedField
      else if r.op == .BASE && fieldAs w == 3#2 then .fieldErr .affineSource
      else if r.op == .AFFINE && 14#4 ≤ fieldPsrc w then .fieldErr .pointRegister
      else .cmd (instrOf w r.op)

/-- A field value at its place in the word (R111). -/
def place {n : Nat} (v : BitVec n) (lo : Nat) : Word := v.setWidth 64 <<< lo

/-- S as a bit (R118). -/
def bitOfS : ScalarSel → BitVec 1
  | .ka => 0#1
  | .kb => 1#1

/-- D as a bit (R118). -/
def bitOfD : PointDest → BitVec 1
  | .x => 0#1
  | .y => 1#1

/-- The one encoding of a command (R111, R113, R114). Total, so that the reserved field values have their words too
(95_test_vectors.md P3 issues `AFFINE PR14`). -/
def encode : Instr → Word
  | .nop => 0x00
  | .mask s => 0x01 ||| place (bitOfS s) 21
  | .mul => 0x02
  | .mulGen => 0x03
  | .simul => 0x04
  | .scrub => 0x08
  | .decomp s => 0x10 ||| place (bitOfS s) 21
  | .base e phi src => 0x11 ||| place e 22 ||| place (BitVec.ofBool phi) 24 ||| place src 25
  | .gent2 => 0x12
  | .gent4 => 0x13
  | .recode2 => 0x14
  | .recode4 => 0x15
  | .sel2 idx d => 0x16 ||| place idx 8 ||| place (bitOfD d) 20
  | .sel4 idx d => 0x17 ||| place idx 8 ||| place (bitOfD d) 20
  | .ladder2 => 0x18
  | .ladder4 => 0x19
  | .dbl => 0x1A
  | .add => 0x1B
  | .correct => 0x1C
  | .cofactor => 0x1D
  | .affine psrc => 0x1E ||| place psrc 16

/-- A command word given as `nbits` bits of a number, every bit above them 0 (at most one 64-bit word: R110). -/
def tableWord (nbits w : Nat) : Word := BitVec.ofNat 64 (w % 2 ^ nbits)

/-- The command the decoder reads from an opcode-table word; none where it answers Illegal or FieldErr. -/
def decodeTableWord (nbits w : Nat) : Option Instr :=
  if nbits ≤ 64 then
    match decode (tableWord nbits w) with
    | .cmd i => some i
    | .illegal _ => none
    | .fieldErr _ => none
  else none

end Sys2Proof
end

