-- ==== Sys2Proof/Machine/State.lean ====
section
/-! DEFINITION. The state of the block, everything 10_state.md gives it, as plain data; the model's own fields beside
it (the schedule, the last read's answer, the count of draws); the fault and the refusal a step can end in; reset. -/

namespace Sys2Proof.Machine

/-- SGN's five flags (R44). Its reserved bits read 0 and ignore writes, so they are not stored. -/
structure Sgn where
  sg0 : Bool
  sg1 : Bool
  sg2 : Bool
  sg3 : Bool
  lsb : Bool
deriving DecidableEq, Repr, Inhabited

/-- The result codes of R281. Codes 4 to 255 are "never produced". -/
inductive ECode where
  | ok       -- 0, E_OK
  | illegal  -- 1, E_ILLEGAL
  | uninit   -- 2, E_UNINIT
  | field    -- 3, E_FIELD
deriving DecidableEq, Repr, Inhabited

/-- STATUS (R52). Its reserved bits are RAZ/WI, so they are not stored. -/
structure Status where
  busy : Bool
  done : Bool
  cerr : Bool
  werr : Bool
  ecode : ECode
deriving DecidableEq, Repr, Inhabited

/-- What an event of the trace names as an operand or a result: a point register by number, or one of GENT2's three
scratch points (R145, R200). Never a data value. -/
inductive TraceReg where
  | pr (n : Nat)
  | scratchT
  | scratchN
  | scratchU
deriving DecidableEq, Repr, Inhabited

/-- The events of R145, in its order. -/
inductive TraceEvent where
  | maskK (s : ScalarSel)
  | decomp (s : ScalarSel)
  | morph (src : BitVec 2)
  | expand
  | condNeg (n : Nat)
  | neg
  | dbl (dst src : TraceReg)
  | add (dst s1 s2 : TraceReg)
  | condAdd (dst s1 s2 : TraceReg)
  | copy (dst src : TraceReg)
  | genMask (j : Nat)
  | setMask (j : Nat)
  | recodeInit (m : Nat)
  | recodeStep (p : Nat)
  | affine (n : Nat)
  | clear
deriving DecidableEq, Repr, Inhabited

/-- The block, over the type Ext its point registers hold values of (R9, R47): the registers of 10_state.md sections 2 to 7 and the trace of the last command executed (R12, R145).
PV[n] is "`pr` holds a value at n" (R48); PR14 and PR15, which never hold a value (R47), are hard-wired in
`Block.point` and `Block.setPoint` (Ops.lean). irq is computed (R55, Flags.lean). -/
structure Block (Ext : Type) where
  ka : U256
  kb : U256
  u0 : U128
  u1 : U128
  u2 : U128
  u3 : U128
  sgn : Sgn
  px : U256
  py : U256
  qx : U256
  qy : U256
  rx : U256
  ry : U256
  pr : Vector (Option Ext) 14
  cmd : Word
  status : Status
  ie : Bool
  pending : Option Word
  trace : List TraceEvent
deriving DecidableEq, Repr

/-- What can happen next, chosen outside the block: a host access of `bytes` bytes at byte offset `off` of the
window (R12, R80, R85), the engine's turn (R142), or the reset input (R310). -/
inductive Event where
  | read (off : BitVec 12) (bytes : Nat)
  | write (off : BitVec 12) (bytes : Nat) (v : Word)
  | engine
  | reset
deriving DecidableEq, Repr, Inhabited

/-- The machine: the block, and the model's own fields. `schedule` is the order in which the agents still move (log
3), `response` the word the last host access returned, if it was a read (log 5), `drawn` how many free values were
drawn so far (log 4). -/
structure State extends Block Config.Ext where
  schedule : List Event
  response : Option Word
  drawn : Nat
deriving DecidableEq, Repr

/-- The reasons a step can stop with a fault. -/
inductive Fault where
  /-- Raised by a host access that is not an aligned 64-bit access (R85, R285, I12): a bus error, "a fault of the host
  agent", with no effect on the block. No command raises it. Safe: every run that contains such an access ends. -/
  | hostBusError (off : BitVec 12) (bytes : Nat)
deriving DecidableEq, Repr, Inhabited

/-- The reasons a step can be refused. -/
inductive Refusal where
  /-- Raised by an arm of `exec` whose instruction has no meaning yet; no arm of this model is so. Safe. -/
  | notModelled (mnemonic : String)
deriving DecidableEq, Repr, Inhabited

/-- The block after reset: the table of R63. -/
def Block.reset {Ext : Type} : Block Ext where
  ka := 0
  kb := 0
  u0 := 0
  u1 := 0
  u2 := 0
  u3 := 0
  sgn := ⟨false, false, false, false, false⟩
  px := 0
  py := 0
  qx := 0
  qy := 0
  rx := 0
  ry := 0
  pr := Vector.replicate 14 none
  cmd := 0
  status := ⟨false, false, false, false, .ok⟩
  ie := false
  pending := none
  trace := []

/-- The machine after reset: the block as R63 says (idle, waiting for a CMD write, R312), no event scheduled, nothing
read, nothing drawn (the last three DESIGN CHOICE: logs 3, 5, 4). -/
def State.reset : State where
  toBlock := Block.reset
  schedule := []
  response := none
  drawn := 0

end Sys2Proof.Machine

namespace Sys2Proof

/-- The value a host read of a data register returns while BUSY = 1: "an unspecified 64-bit value, and a model draws
it freely" (R91, I11). A free value: it may depend on the number of the draw, on everything the block holds and on the
offset, so that nothing can be proved of what such a read returns or reveals (log 4). -/
opaque Config.busyRead : Nat → Machine.Block Config.Ext → BitVec 12 → Word

end Sys2Proof
end

