-- ==== Sys2Proof/Machine/Operands.lean ====
section
/-! DEFINITION. The operand forms of the commands: the words of a multi-word register (R10, R82), and the register a
field of the command word names (30_encoding.md R118). -/

namespace Sys2Proof.Machine

variable {Ext : Type}

/-- Word j of a multi-word value, least significant first (R82): bits 64·j+63 down to 64·j. -/
def limb {n : Nat} (v : BitVec n) (j : Nat) : Word := v.extractLsb' (64 * j) 64

/-- A multi-word value with its word j replaced and every other bit kept (R89: a write replaces the whole word). -/
def setLimb {n : Nat} (v : BitVec n) (j : Nat) (w : Word) : BitVec n :=
  (v &&& ~~~((BitVec.allOnes 64).setWidth n <<< (64 * j))) ||| (w.setWidth n <<< (64 * j))

/-- Byte b of a word: bits 8·b+7 down to 8·b, at byte address offset + b (R83). -/
def byteOf (w : Word) (b : Nat) : BitVec 8 := w.extractLsb' (8 * b) 8

/-- S: KA or KB (R118). -/
def Block.scalar (b : Block Ext) : ScalarSel → U256
  | .ka => b.ka
  | .kb => b.kb

def Block.setScalar (b : Block Ext) (s : ScalarSel) (v : U256) : Block Ext :=
  match s with
  | .ka => { b with ka := v }
  | .kb => { b with kb := v }

/-- U[e] (R12). -/
def Block.sub (b : Block Ext) (e : Fin 4) : U128 :=
  match e with
  | 0 => b.u0
  | 1 => b.u1
  | 2 => b.u2
  | 3 => b.u3

def Block.setSub (b : Block Ext) (e : Fin 4) (v : U128) : Block Ext :=
  match e with
  | 0 => { b with u0 := v }
  | 1 => { b with u1 := v }
  | 2 => { b with u2 := v }
  | 3 => { b with u3 := v }

/-- AS: the affine source of BASE, as the conditional expression of R164 has it. (AS = 3 names no source; a command
that holds it ends with E_FIELD and never comes here: R116.) -/
def Block.affineSource (c : Params Ext) (b : Block Ext) (src : BitVec 2) : Aff :=
  if src = 0#2 then ⟨b.px, b.py⟩ else if src = 1#2 then ⟨b.qx, b.qy⟩ else c.generator

/-- E: BASE writes PR[8+e] (R118). -/
def baseReg (e : BitVec 2) : Nat := 8 + e.toNat

/-- D: SEL2 and SEL4 write PR[12+D] (R118). -/
def destReg : PointDest → Nat
  | .x => 12
  | .y => 13

end Sys2Proof.Machine
end

