-- ==== Sys2Proof/Machine/Flags.lean ====
section
/-! DEFINITION. The flags: SGN, STATUS and CTRL as the words the host sees, the irq output, the recoding's returned
bit, and the index and sign bits a select computes (10_state.md R44, R52, R53, R55; R180; R220, R222). -/

namespace Sys2Proof.Machine

variable {Ext : Type}

/-- A word with one bit at place i, or nothing. -/
def bitAt (f : Bool) (i : Nat) : Word := (BitVec.ofBool f).setWidth 64 <<< i

/-- SGN as a word: reserved bits read 0 (R44, R87). -/
def sgnWord (g : Sgn) : Word :=
  bitAt g.sg0 0 ||| bitAt g.sg1 1 ||| bitAt g.sg2 2 ||| bitAt g.sg3 3 ||| bitAt g.lsb 8

/-- The flags a word written to SGN stores: writes to reserved bits are ignored (R44, R87). -/
def sgnOfWord (w : Word) : Sgn :=
  ⟨w.getLsbD 0, w.getLsbD 1, w.getLsbD 2, w.getLsbD 3, w.getLsbD 8⟩

/-- SG[e] (R12, R44). -/
def sign (g : Sgn) (e : BitVec 2) : Bool :=
  if e = 0#2 then g.sg0 else if e = 1#2 then g.sg1 else if e = 2#2 then g.sg2 else g.sg3

/-- The result code as the number R281 gives it. -/
def codeByte : ECode → BitVec 8
  | .ok => 0
  | .illegal => 1
  | .uninit => 2
  | .field => 3

/-- STATUS as a word (R52): reserved bits read 0. -/
def statusWord (t : Status) : Word :=
  bitAt t.busy 0 ||| bitAt t.done 1 ||| bitAt t.cerr 2 ||| bitAt t.werr 3 ||| ((codeByte t.ecode).setWidth 64 <<< 8)

/-- A host write to STATUS: each of DONE, CERR and WERR written as 1 is cleared, written as 0 is left; BUSY, ECODE and
the reserved bits ignore the write (R52, R87, R88). -/
def statusAfterWrite (t : Status) (w : Word) : Status :=
  { t with
    done := t.done && !w.getLsbD 1
    cerr := t.cerr && !w.getLsbD 2
    werr := t.werr && !w.getLsbD 3 }

/-- CTRL as a word: IE at bit 0, the rest 0 (R53). -/
def ctrlWord (ie : Bool) : Word := bitAt ie 0

/-- The interrupt output, irq = STATUS.DONE AND CTRL.IE (R55, R286). -/
def irq (b : Block Ext) : Bool := b.status.done && b.ie

/-- `lsb <- a[0] ^ 1` (R180, R182 step 1). -/
def recodeLsb (a : U128) : Bool := !a.getLsbD 0

/-- SEL2's index k: `(((bits ^ (bits >> 1)) & 1) << 2) | ((U1 >> i) & 3)` with `bits = U0 >> i` (R220). -/
def selectIndex2 (u0 u1 : U128) (i : Nat) : Nat :=
  let bits := u0 >>> i
  ((((bits ^^^ (bits >>> 1)) &&& 1#128) <<< 2) ||| ((u1 >>> i) &&& 3#128)).toNat

/-- SEL2's sign: `((bits >> 1) & 1) ^ 1` (R220). -/
def selectNeg2 (u0 : U128) (i : Nat) : Bool :=
  let bits := u0 >>> i
  ((bits >>> 1) &&& 1#128) ^^^ 1#128 == 1#128

/-- SEL4's index k: `((U1 >> i) & 1) | (((U2 >> i) & 1) << 1) | (((U3 >> i) & 1) << 2)` (R222). -/
def selectIndex4 (u1 u2 u3 : U128) (i : Nat) : Nat :=
  (((u1 >>> i) &&& 1#128) ||| (((u2 >>> i) &&& 1#128) <<< 1) ||| (((u3 >>> i) &&& 1#128) <<< 2)).toNat

/-- SEL4's sign: `((U0 >> i) & 1) ^ 1` (R222). -/
def selectNeg4 (u0 : U128) (i : Nat) : Bool :=
  ((u0 >>> i) &&& 1#128) ^^^ 1#128 == 1#128

end Sys2Proof.Machine
end

