-- ==== Sys2Proof/Machine/Ops.lean ====
section
/-! DEFINITION. The operations every command is written with: reading, writing and dropping point registers, the
conditional capabilities, the trace, the set of registers a command reads, and the lifecycle (acceptance, rejection,
execution all or nothing, completion). The block takes no exception and returns from none (60_exceptions.md R280,
R288, R289): ending a command with a result code, `fail`, is all an error does. -/

namespace Sys2Proof.Machine

variable {Ext : Type}

/-- PR[n], if it holds a value (R47, R48). PR14 and PR15 never do. -/
def Block.point (b : Block Ext) (n : Nat) : Option Ext := if h : n < 14 then b.pr[n] else none

/-- PV[n] (R48); PV[14] and PV[15] are hard-wired 0. -/
def Block.valid (b : Block Ext) (n : Nat) : Bool := (b.point n).isSome

/-- PR[n] <- x and PV[n] <- 1 (R48); nothing happens for the reserved registers. -/
def Block.setPoint (b : Block Ext) (n : Nat) (x : Ext) : Block Ext :=
  { b with pr := b.pr.setIfInBounds n (some x) }

/-- Every PV[n] <- 0: "every point register now holds no value" (R149). -/
def Block.dropPoints (b : Block Ext) : Block Ext := { b with pr := Vector.replicate 14 none }

/-- PVALID: bits 15:0 are PV[15:0], the rest read 0 (R54). -/
def Block.pvalid (b : Block Ext) : Word :=
  (BitVec.ofBoolListLE ((List.range 16).map b.valid)).setWidth 64

/-- `trace += ev` (R12). -/
def Block.emit (b : Block Ext) (ev : TraceEvent) : Block Ext := { b with trace := b.trace ++ [ev] }

/-- The trace of a command starts empty (R145). -/
def Block.clearTrace (b : Block Ext) : Block Ext := { b with trace := [] }

/-- One capability call: its result goes to PR[n], its event to the trace. -/
def Block.putPoint (b : Block Ext) (n : Nat) (x : Ext) (ev : TraceEvent) : Block Ext := (b.setPoint n x).emit ev

/-- R17: `if f then neg(x) else x`. -/
def condNeg (c : Params Ext) (f : Bool) (x : Ext) : Ext := if f then c.neg x else x

/-- R21: `if f then add(x, y) else x`. -/
def condAdd (c : Params Ext) (f : Bool) (x y : Ext) : Ext := if f then c.add x y else x

/-- R26: `copy(x) = x`. -/
def copyPoint (x : Ext) : Ext := x

/-- The point registers a command reads before it writes them (the table of R144). -/
def reads : Instr → List Nat
  | .nop | .scrub | .mask _ | .decomp _ | .base _ _ _ | .recode2 | .recode4 | .mul | .mulGen | .simul => []
  | .gent2 => [8, 9]
  | .gent4 => [8, 9, 10, 11]
  | .sel2 _ _ | .sel4 _ _ | .ladder2 | .ladder4 => [0, 1, 2, 3, 4, 5, 6, 7]
  | .dbl | .cofactor => [12]
  | .add => [12, 13]
  | .correct => [8, 12]
  | .affine psrc => [psrc.toNat]

/-- Completion (R142): ECODE <- code, BUSY <- 0, DONE <- 1, and no command is pending any more (R57). CERR and WERR
are kept (R284). -/
def finish (code : ECode) (b : Block Ext) : Block Ext :=
  { b with pending := none, status := { b.status with busy := false, done := true, ecode := code } }

/-- `raise Error(code)` (R12): the command ends, only STATUS has changed, and the trace is empty (R143, R145). -/
def fail (code : ECode) (b : Block Ext) : Block Ext := finish code b.clearTrace

/-- R143 below the decoder: if a register of `rs` holds no value, E_UNINIT before anything is written; else the
command's own rule, its trace recorded from the start, then E_OK. (`perform` finds every register it reads valid, so
its `none` does not occur here; if it could, E_UNINIT is what R48 says: log 10.) -/
def runCommand (rs : List Nat) (perform : Block Ext → Option (Block Ext)) (b : Block Ext) : Block Ext :=
  if rs.all b.valid then
    match perform b.clearTrace with
    | some b' => finish .ok b'
    | none => fail .uninit b
  else fail .uninit b

/-- R143 for a command already told from Illegal words: a reserved field value is reported before a register without
a value (R282). -/
def executeInstr (i : Instr) (perform : Block Ext → Option (Block Ext)) (b : Block Ext) : Block Ext :=
  if wellFormed i then runCommand (reads i) perform b else fail .field b

/-- The same for the whole machine: the schedule, the last response and the draws are not the engine's. -/
def State.command (s : State) (i : Instr) (perform : Block Config.Ext → Option (Block Config.Ext)) : State :=
  { s with toBlock := executeInstr i perform s.toBlock }

/-- Acceptance of a command word while idle (R140): neither decoded nor any other register read. -/
def accept (w : Word) (b : Block Ext) : Block Ext :=
  { b with cmd := w, pending := some w, status := { b.status with busy := true, done := false, ecode := .ok } }

/-- Rejection of a command word while busy (R141): dropped, CERR <- 1. -/
def rejectCommand (b : Block Ext) : Block Ext := { b with status := { b.status with cerr := true } }

/-- An operand write while busy (R90): dropped, WERR <- 1. -/
def rejectOperand (b : Block Ext) : Block Ext := { b with status := { b.status with werr := true } }

end Sys2Proof.Machine
end

