-- ==== Sys2Proof/Machine/Control.lean ====
section
/-! DEFINITION. The housekeeping commands NOP and SCRUB (40_control.md R148, R149). -/

namespace Sys2Proof.Machine

variable {Ext : Type}

/-- R148: `skip`. -/
def performNop (b : Block Ext) : Option (Block Ext) := some b

/-- R149: working storage cleared; KA, KB, PX..QY, RX, RY, CTRL and CMD unchanged. Trace [Clear]. -/
def performScrub (b : Block Ext) : Option (Block Ext) :=
  some ({ b.dropPoints with u0 := 0, u1 := 0, u2 := 0, u3 := 0, sgn := ⟨false, false, false, false, false⟩ }.emit .clear)

def execNop (s : State) : Host.Outcome State Fault Refusal := .next (s.command .nop performNop)

def execScrub (s : State) : Host.Outcome State Fault Refusal := .next (s.command .scrub performScrub)

end Sys2Proof.Machine
end

