-- ==== Sys2Proof/Machine/Ladder.lean ====
section
/-! DEFINITION. The oblivious table scan, SEL2 and SEL4, DBL, ADD, the two ladders, CORRECT, COFACTOR and AFFINE
(44_ladder.md). -/

namespace Sys2Proof.Machine

variable {Ext : Type}

/-- `m <- genMask(j, k)`: all ones (true) iff j = k, else all zeros (R25, R221). -/
def genMask (j k : Nat) : Bool := j == k

/-- `r | (src & m)` over whole points (R25, R221). `none` is ZERO, "the all-zero bit pattern" r starts from, which is
"never a result" (C8): ORing an entry into it gives the entry. The scan's masks are all ones once only, so nothing is
ever ORed into an entry, and "a model needs no separate function" for the bits (R25; log 19). -/
def setMask (src : Ext) (m : Bool) (r : Option Ext) : Option Ext := if m then some src else r

/-- The table entries from PR[j] on, masked by k and ORed into r, every one of them, with the two events of each. -/
def scanFrom (k j : Nat) : List Ext → Option Ext → Block Ext → Option Ext × Block Ext
  | [], r, b => (r, b)
  | x :: rest, r, b =>
    scanFrom k (j + 1) rest (setMask x (genMask j k) r) ((b.emit (.genMask j)).emit (.setMask j))

/-- T0..T7 = PR0..PR7, if all of them hold a value. -/
def Block.table (b : Block Ext) : Option (List Ext) := (List.range 8).mapM b.point

/-- R221: every table read is this full scan, from the all-zero pattern. -/
def scan (k : Nat) (table : List Ext) (b : Block Ext) : Option Ext × Block Ext := scanFrom k 0 table none b

/-- R220. -/
def performSel2 (c : Params Ext) (i : Nat) (d : PointDest) (b : Block Ext) : Option (Block Ext) := do
  let table ← b.table
  let r := scan (selectIndex2 b.u0 b.u1 i) table b
  let x ← r.1
  some (r.2.putPoint (destReg d) (condNeg c (selectNeg2 b.u0 i) x) (.condNeg (destReg d)))

/-- R222. -/
def performSel4 (c : Params Ext) (i : Nat) (d : PointDest) (b : Block Ext) : Option (Block Ext) := do
  let table ← b.table
  let r := scan (selectIndex4 b.u1 b.u2 b.u3 i) table b
  let x ← r.1
  some (r.2.putPoint (destReg d) (condNeg c (selectNeg4 b.u0 i) x) (.condNeg (destReg d)))

/-- R223: PR12 <- dbl(PR12). -/
def performDbl (c : Params Ext) (b : Block Ext) : Option (Block Ext) := do
  let x ← b.point 12
  some (b.putPoint 12 (c.dbl x) (.dbl (.pr 12) (.pr 12)))

/-- R224: PR12 <- add(PR12, PR13). -/
def performAdd (c : Params Ext) (b : Block Ext) : Option (Block Ext) := do
  let x ← b.point 12
  let y ← b.point 13
  some (b.putPoint 12 (c.add x y) (.add (.pr 12) (.pr 12) (.pr 13)))

/-- The last n iterations of LADDER2's loop: i = 2·(n−1), ..., 2, 0 (R225). -/
def ladder2Loop (c : Params Ext) : Nat → Block Ext → Option (Block Ext)
  | 0, b => some b
  | n + 1, b => do
    let b ← performSel2 c (2 * n) .y b
    let b ← performDbl c b
    let b ← performDbl c b
    let b ← performAdd c b
    ladder2Loop c n b

/-- R225: `SEL2 126, X`, then 63 iterations i = 124 downto 0 step 2. -/
def performLadder2 (c : Params Ext) (b : Block Ext) : Option (Block Ext) := do
  let b ← performSel2 c 126 .x b
  ladder2Loop c 63 b

/-- The last n iterations of LADDER4's loop: i = n−1, ..., 1, 0 (R226). -/
def ladder4Loop (c : Params Ext) : Nat → Block Ext → Option (Block Ext)
  | 0, b => some b
  | n + 1, b => do
    let b ← performSel4 c n .y b
    let b ← performDbl c b
    let b ← performAdd c b
    ladder4Loop c n b

/-- R226: `SEL4 126, X`, then 126 iterations i = 125 downto 0. -/
def performLadder4 (c : Params Ext) (b : Block Ext) : Option (Block Ext) := do
  let b ← performSel4 c 126 .x b
  ladder4Loop c 126 b

/-- R227: PR12 <- condAdd(LSB, PR12, PR8); the point added is the sign-corrected E0 on both paths (C4). -/
def performCorrect (c : Params Ext) (b : Block Ext) : Option (Block Ext) := do
  let x ← b.point 12
  let e0 ← b.point 8
  some (b.putPoint 12 (condAdd c b.sgn.lsb x e0) (.condAdd (.pr 12) (.pr 12) (.pr 8)))

/-- R228: PR12 <- dbl(dbl(PR12)), two calls. -/
def performCofactor (c : Params Ext) (b : Block Ext) : Option (Block Ext) := do
  let x ← b.point 12
  let b := b.putPoint 12 (c.dbl x) (.dbl (.pr 12) (.pr 12))
  some (b.putPoint 12 (c.dbl (c.dbl x)) (.dbl (.pr 12) (.pr 12)))

/-- R229: (RX, RY) <- affine(PR[n]); PR[n] unchanged. -/
def performAffine (c : Params Ext) (n : Nat) (b : Block Ext) : Option (Block Ext) := do
  let x ← b.point n
  let a := c.affine x
  some ({ b with rx := a.x, ry := a.y }.emit (.affine n))

def execSel2 (idx : BitVec 7) (d : PointDest) (s : State) : Host.Outcome State Fault Refusal :=
  .next (s.command (.sel2 idx d) (performSel2 Config.params idx.toNat d))

def execSel4 (idx : BitVec 7) (d : PointDest) (s : State) : Host.Outcome State Fault Refusal :=
  .next (s.command (.sel4 idx d) (performSel4 Config.params idx.toNat d))

def execLadder2 (s : State) : Host.Outcome State Fault Refusal :=
  .next (s.command .ladder2 (performLadder2 Config.params))

def execLadder4 (s : State) : Host.Outcome State Fault Refusal :=
  .next (s.command .ladder4 (performLadder4 Config.params))

def execDbl (s : State) : Host.Outcome State Fault Refusal := .next (s.command .dbl (performDbl Config.params))

def execAdd (s : State) : Host.Outcome State Fault Refusal := .next (s.command .add (performAdd Config.params))

def execCorrect (s : State) : Host.Outcome State Fault Refusal :=
  .next (s.command .correct (performCorrect Config.params))

def execCofactor (s : State) : Host.Outcome State Fault Refusal :=
  .next (s.command .cofactor (performCofactor Config.params))

def execAffine (psrc : BitVec 4) (s : State) : Host.Outcome State Fault Refusal :=
  .next (s.command (.affine psrc) (performAffine Config.params psrc.toNat))

end Sys2Proof.Machine
end

