-- ==== Sys2Proof/Machine/Masking.lean ====
section
/-! DEFINITION. Scalar masking, GLS decomposition and base-point preparation: MASK, DECOMP, BASE
(41_masking_decomposition.md). -/

namespace Sys2Proof.Machine

variable {Ext : Type}

/-- `K[3] <- K[3] & 0x07FF_FFFF_FFFF_FFFF`, the other limbs unchanged (R160). -/
def maskScalar (k : U256) : U256 := setLimb k 3 (limb k 3 &&& 0x07FFFFFFFFFFFFFF#64)

/-- R160. -/
def performMask (s : ScalarSel) (b : Block Ext) : Option (Block Ext) :=
  some ((b.setScalar s (maskScalar (b.scalar s))).emit (.maskK s))

/-- R162: KA goes to (SG0, U0, SG1, U1), KB to (SG2, U2, SG3, U3); the scalar and the other pair are unchanged. -/
def performDecomp (c : Params Ext) (s : ScalarSel) (b : Block Ext) : Option (Block Ext) :=
  let d := c.decompose (b.scalar s)
  let b' := match s with
    | .ka => { b with u0 := d.2.1, u1 := d.2.2.2, sgn := { b.sgn with sg0 := d.1, sg1 := d.2.2.1 } }
    | .kb => { b with u2 := d.2.1, u3 := d.2.2.2, sgn := { b.sgn with sg2 := d.1, sg3 := d.2.2.1 } }
  some (b'.emit (.decomp s))

/-- R164. -/
def performBase (c : Params Ext) (e : BitVec 2) (phi : Bool) (src : BitVec 2) (b : Block Ext) : Option (Block Ext) :=
  let p := b.affineSource c src
  let aff := if phi then c.morph p else p
  let b1 := if phi then b.emit (.morph src) else b
  let x := c.expand aff
  let b2 := b1.emit .expand
  some (b2.putPoint (baseReg e) (condNeg c (sign b.sgn e) x) (.condNeg (baseReg e)))

def execMask (sel : ScalarSel) (s : State) : Host.Outcome State Fault Refusal :=
  .next (s.command (.mask sel) (performMask sel))

def execDecomp (sel : ScalarSel) (s : State) : Host.Outcome State Fault Refusal :=
  .next (s.command (.decomp sel) (performDecomp Config.params sel))

def execBase (e : BitVec 2) (phi : Bool) (src : BitVec 2) (s : State) : Host.Outcome State Fault Refusal :=
  .next (s.command (.base e phi src) (performBase Config.params e phi src))

end Sys2Proof.Machine
end

