-- ==== Sys2Proof/Machine/Recoding.lean ====
section
/-! DEFINITION. GLS-SAC recoding: RECODE2 (m = 2, len = 128) and RECODE4 (m = 4, len = 127), bit-exact over 128-bit
registers (42_recoding.md R180, R182; the mask positions are those of 90_conflicts.md C2). -/

namespace Sys2Proof.Machine

variable {Ext : Type}

/-- Steps 1 and 2: `a <- (a - zext(lsb)) >> 1`, then bit `top` = len−1 of a set to 1. -/
def recodeSign (top : Nat) (a : U128) : U128 :=
  ((a - (BitVec.ofBool (recodeLsb a)).setWidth 128) >>> 1) ||| (1#128 <<< top)

/-- Step 3 at mask position p: `b <- b + ((b & anmask) << 1)` with `anmask = an & (1 << p)`, modulo 2^128. -/
def recodeBit (an : U128) (p : Nat) (v : U128) : U128 := v + ((v &&& (an &&& (1#128 <<< p))) <<< 1)

/-- One iteration of RECODE2's loop, and its event. -/
def recode2Step (an : U128) (b : Block Ext) (p : Nat) : Block Ext :=
  { b with u1 := recodeBit an p b.u1 }.emit (.recodeStep p)

/-- One iteration of RECODE4's loop, the three lanes under the same mask, and its event. -/
def recode4Step (an : U128) (b : Block Ext) (p : Nat) : Block Ext :=
  { b with u1 := recodeBit an p b.u1, u2 := recodeBit an p b.u2, u3 := recodeBit an p b.u3 }.emit (.recodeStep p)

/-- R180: p = 0..126. LSB is the inverted low bit of the original U0 (C3). -/
def performRecode2 (b : Block Ext) : Option (Block Ext) :=
  let a := recodeSign 127 b.u0
  let b1 := { b with u0 := a, sgn := { b.sgn with lsb := recodeLsb b.u0 } }.emit (.recodeInit 2)
  some ((List.range 127).foldl (recode2Step (~~~a)) b1)

/-- R182: p = 0..125. -/
def performRecode4 (b : Block Ext) : Option (Block Ext) :=
  let a := recodeSign 126 b.u0
  let b1 := { b with u0 := a, sgn := { b.sgn with lsb := recodeLsb b.u0 } }.emit (.recodeInit 4)
  some ((List.range 126).foldl (recode4Step (~~~a)) b1)

def execRecode2 (s : State) : Host.Outcome State Fault Refusal := .next (s.command .recode2 performRecode2)

def execRecode4 (s : State) : Host.Outcome State Fault Refusal := .next (s.command .recode4 performRecode4)

end Sys2Proof.Machine
end

