-- ==== Sys2Proof/Machine/Table.lean ====
section
/-! DEFINITION. The precomputed table: GENT2 and GENT4, each capability call in the fixed order of 43_table_build.md
R200 and R202. -/

namespace Sys2Proof.Machine

variable {Ext : Type}

/-- R200. t = 2A, n = −B and u = 2B are scratch, not architectural (R58). -/
def performGent2 (c : Params Ext) (b : Block Ext) : Option (Block Ext) := do
  let pA ← b.point 8
  let pB ← b.point 9
  let t := c.dbl pA
  let b := b.emit (.dbl .scratchT (.pr 8))
  let t0 := c.add t pA
  let b := b.putPoint 0 t0 (.add (.pr 0) .scratchT (.pr 8))
  let b := b.putPoint 4 (copyPoint pA) (.copy (.pr 4) (.pr 8))
  let b := b.putPoint 7 (c.add pA pB) (.add (.pr 7) (.pr 8) (.pr 9))
  let n := c.neg pB
  let b := b.emit .neg
  let b := b.putPoint 5 (c.add pA n) (.add (.pr 5) (.pr 8) .scratchN)
  let u := c.dbl pB
  let b := b.emit (.dbl .scratchU (.pr 9))
  let b := b.putPoint 6 (c.add pA u) (.add (.pr 6) (.pr 8) .scratchU)
  let t1 := c.add t0 pB
  let b := b.putPoint 1 t1 (.add (.pr 1) (.pr 0) (.pr 9))
  let b := b.putPoint 2 (c.add t0 u) (.add (.pr 2) (.pr 0) .scratchU)
  let b := b.putPoint 3 (c.add t1 u) (.add (.pr 3) (.pr 1) .scratchU)
  some b

/-- R202. -/
def performGent4 (c : Params Ext) (b : Block Ext) : Option (Block Ext) := do
  let pA ← b.point 8
  let pB ← b.point 9
  let pC ← b.point 10
  let pD ← b.point 11
  let b := b.putPoint 0 (copyPoint pA) (.copy (.pr 0) (.pr 8))
  let t1 := c.add pA pB
  let b := b.putPoint 1 t1 (.add (.pr 1) (.pr 8) (.pr 9))
  let t2 := c.add pA pC
  let b := b.putPoint 2 t2 (.add (.pr 2) (.pr 8) (.pr 10))
  let t3 := c.add t1 pC
  let b := b.putPoint 3 t3 (.add (.pr 3) (.pr 1) (.pr 10))
  let b := b.putPoint 4 (c.add pA pD) (.add (.pr 4) (.pr 8) (.pr 11))
  let b := b.putPoint 5 (c.add t1 pD) (.add (.pr 5) (.pr 1) (.pr 11))
  let b := b.putPoint 6 (c.add t2 pD) (.add (.pr 6) (.pr 2) (.pr 11))
  let b := b.putPoint 7 (c.add t3 pD) (.add (.pr 7) (.pr 3) (.pr 11))
  some b

def execGent2 (s : State) : Host.Outcome State Fault Refusal :=
  .next (s.command .gent2 (performGent2 Config.params))

def execGent4 (s : State) : Host.Outcome State Fault Refusal :=
  .next (s.command .gent4 (performGent4 Config.params))

end Sys2Proof.Machine
end

