-- ==== Sys2Proof/Machine/ScalarMul.lean ====
section
/-! DEFINITION. The public operations MUL, MUL_GEN and SIMUL: sequences of the component commands inside one step
(45_scalar_multiplication.md R260 to R262; 40_control.md R150). -/

namespace Sys2Proof.Machine

variable {Ext : Type}

/-- The steps MUL and MUL_GEN share; AS = 0 names P (MUL), AS = 2 names G (MUL_GEN) (R260, R261). -/
def performMulOn (c : Params Ext) (src : BitVec 2) (b : Block Ext) : Option (Block Ext) := do
  let b ← performDecomp c .ka b
  let b ← performBase c 0 false src b
  let b ← performBase c 1 true src b
  let b ← performGent2 c b
  let b ← performRecode2 b
  let b ← performLadder2 c b
  let b ← performCorrect c b
  let b ← performCofactor c b
  let b ← performAffine c 12 b
  performScrub b

/-- R260. -/
def performMul (c : Params Ext) (b : Block Ext) : Option (Block Ext) := performMulOn c 0 b

/-- R261: delegates to mul(k, G). -/
def performMulGen (c : Params Ext) (b : Block Ext) : Option (Block Ext) := performMulOn c 2 b

/-- R262. -/
def performSimul (c : Params Ext) (b : Block Ext) : Option (Block Ext) := do
  let b ← performDecomp c .ka b
  let b ← performDecomp c .kb b
  let b ← performBase c 0 false 0 b
  let b ← performBase c 1 true 0 b
  let b ← performBase c 2 false 1 b
  let b ← performBase c 3 true 1 b
  let b ← performGent4 c b
  let b ← performRecode4 b
  let b ← performLadder4 c b
  let b ← performCorrect c b
  let b ← performCofactor c b
  let b ← performAffine c 12 b
  performScrub b

def execMul (s : State) : Host.Outcome State Fault Refusal := .next (s.command .mul (performMul Config.params))

def execMulGen (s : State) : Host.Outcome State Fault Refusal :=
  .next (s.command .mulGen (performMulGen Config.params))

def execSimul (s : State) : Host.Outcome State Fault Refusal :=
  .next (s.command .simul (performSimul Config.params))

end Sys2Proof.Machine
end

