-- ==== Sys2Proof/Machine/Dispatch.lean ====
section
/-! DEFINITION. Which meaning each command has: one arm per constructor of Instr, nothing else. -/

namespace Sys2Proof.Machine

def exec (i : Instr) (s : State) : Host.Outcome State Fault Refusal :=
  match i with
  | .nop => Sys2Proof.Machine.execNop s
  | .mask sel => Sys2Proof.Machine.execMask sel s
  | .mul => Sys2Proof.Machine.execMul s
  | .mulGen => Sys2Proof.Machine.execMulGen s
  | .simul => Sys2Proof.Machine.execSimul s
  | .scrub => Sys2Proof.Machine.execScrub s
  | .decomp sel => Sys2Proof.Machine.execDecomp sel s
  | .base e phi src => Sys2Proof.Machine.execBase e phi src s
  | .gent2 => Sys2Proof.Machine.execGent2 s
  | .gent4 => Sys2Proof.Machine.execGent4 s
  | .recode2 => Sys2Proof.Machine.execRecode2 s
  | .recode4 => Sys2Proof.Machine.execRecode4 s
  | .sel2 idx d => Sys2Proof.Machine.execSel2 idx d s
  | .sel4 idx d => Sys2Proof.Machine.execSel4 idx d s
  | .ladder2 => Sys2Proof.Machine.execLadder2 s
  | .ladder4 => Sys2Proof.Machine.execLadder4 s
  | .dbl => Sys2Proof.Machine.execDbl s
  | .add => Sys2Proof.Machine.execAdd s
  | .correct => Sys2Proof.Machine.execCorrect s
  | .cofactor => Sys2Proof.Machine.execCofactor s
  | .affine psrc => Sys2Proof.Machine.execAffine psrc s

end Sys2Proof.Machine
end

