-- ==== Sys2Proof/Machine/Engine.lean ====
section
/-! DEFINITION. The engine's one step (40_control.md R142, R143). -/

namespace Sys2Proof.Machine

/-- While a command is pending the engine executes it and completes, in one atomic step; while none is, the block is
idle and does nothing (R296, R312; log 23). -/
def engineStep (s : State) : Host.Outcome State Fault Refusal :=
  match s.pending with
  | none => .next s
  | some w =>
    match decode w with
    | .cmd i => exec i s
    | .illegal _ => .next { s with toBlock := fail .illegal s.toBlock }
    | .fieldErr _ => .next { s with toBlock := fail .field s.toBlock }

end Sys2Proof.Machine
end

