-- ==== Sys2Proof/Machine/Window.lean ====
section
/-! DEFINITION. The register window: the map of 20_memory.md R81, and what a host read or write does (R85 to R91;
10_state.md R51 to R54, R62; 40_control.md R140, R141). -/

namespace Sys2Proof.Machine

variable {Ext : Type}

/-- The 64-bit registers of the window; `reserved` is every offset without one (R81, R86). -/
inductive Reg where
  | cmd
  | status
  | ctrl
  | pvalid
  | ka (j : Fin 4)
  | kb (j : Fin 4)
  | uLo (e : Fin 4)
  | uHi (e : Fin 4)
  | sgn
  | px (j : Fin 4)
  | py (j : Fin 4)
  | qx (j : Fin 4)
  | qy (j : Fin 4)
  | rx (j : Fin 4)
  | ry (j : Fin 4)
  | reserved
deriving DecidableEq, Repr, Inhabited

/-- The offset of a register (R81); none for `reserved`. -/
def regOffset : Reg → Option (BitVec 12)
  | .cmd => some 0x000
  | .status => some 0x008
  | .ctrl => some 0x010
  | .pvalid => some 0x018
  | .ka j => some (BitVec.ofNat 12 (0x040 + 8 * j.val))
  | .kb j => some (BitVec.ofNat 12 (0x060 + 8 * j.val))
  | .uLo e => some (BitVec.ofNat 12 (0x080 + 16 * e.val))
  | .uHi e => some (BitVec.ofNat 12 (0x088 + 16 * e.val))
  | .sgn => some 0x0C0
  | .px j => some (BitVec.ofNat 12 (0x100 + 8 * j.val))
  | .py j => some (BitVec.ofNat 12 (0x120 + 8 * j.val))
  | .qx j => some (BitVec.ofNat 12 (0x140 + 8 * j.val))
  | .qy j => some (BitVec.ofNat 12 (0x160 + 8 * j.val))
  | .rx j => some (BitVec.ofNat 12 (0x180 + 8 * j.val))
  | .ry j => some (BitVec.ofNat 12 (0x1A0 + 8 * j.val))
  | .reserved => none

/-- The register at an offset that is a multiple of 8 (R81): word k of the window. -/
def regOfIndex (k : Nat) : Reg :=
  if k = 0 then .cmd
  else if k = 1 then .status
  else if k = 2 then .ctrl
  else if k = 3 then .pvalid
  else if k < 8 then .reserved
  else if k < 12 then .ka (Fin.ofNat 4 (k - 8))
  else if k < 16 then .kb (Fin.ofNat 4 (k - 12))
  else if k < 24 then
    if k % 2 = 0 then .uLo (Fin.ofNat 4 ((k - 16) / 2)) else .uHi (Fin.ofNat 4 ((k - 16) / 2))
  else if k = 24 then .sgn
  else if k < 32 then .reserved
  else if k < 36 then .px (Fin.ofNat 4 (k - 32))
  else if k < 40 then .py (Fin.ofNat 4 (k - 36))
  else if k < 44 then .qx (Fin.ofNat 4 (k - 40))
  else if k < 48 then .qy (Fin.ofNat 4 (k - 44))
  else if k < 52 then .rx (Fin.ofNat 4 (k - 48))
  else if k < 56 then .ry (Fin.ofNat 4 (k - 52))
  else .reserved

def regAt (off : BitVec 12) : Reg := regOfIndex (off.toNat / 8)

/-- The operand registers (R62). -/
def isOperand : Reg → Bool
  | .ka _ | .kb _ | .uLo _ | .uHi _ | .sgn | .px _ | .py _ | .qx _ | .qy _ => true
  | .cmd | .status | .ctrl | .pvalid | .rx _ | .ry _ | .reserved => false

/-- The registers whose reads are unspecified while BUSY = 1: every register but CMD, STATUS, CTRL and PVALID (R91,
I11). A reserved offset holds no register and reads 0 (R86; DEDUCED: log 7). -/
def isData : Reg → Bool
  | .ka _ | .kb _ | .uLo _ | .uHi _ | .sgn | .px _ | .py _ | .qx _ | .qy _ | .rx _ | .ry _ => true
  | .cmd | .status | .ctrl | .pvalid | .reserved => false

/-- The current value of a register (R51 to R54, R81, R86). -/
def readReg (b : Block Ext) : Reg → Word
  | .cmd => b.cmd
  | .status => statusWord b.status
  | .ctrl => ctrlWord b.ie
  | .pvalid => b.pvalid
  | .ka j => limb b.ka j
  | .kb j => limb b.kb j
  | .uLo e => limb (b.sub e) 0
  | .uHi e => limb (b.sub e) 1
  | .sgn => sgnWord b.sgn
  | .px j => limb b.px j
  | .py j => limb b.py j
  | .qx j => limb b.qx j
  | .qy j => limb b.qy j
  | .rx j => limb b.rx j
  | .ry j => limb b.ry j
  | .reserved => 0

/-- The word stored in an operand register (R88: no effect beyond storing the value); every other register is left. -/
def storeOperand (b : Block Ext) (r : Reg) (v : Word) : Block Ext :=
  match r with
  | .ka j => { b with ka := setLimb b.ka j v }
  | .kb j => { b with kb := setLimb b.kb j v }
  | .uLo e => b.setSub e (setLimb (b.sub e) 0 v)
  | .uHi e => b.setSub e (setLimb (b.sub e) 1 v)
  | .sgn => { b with sgn := sgnOfWord v }
  | .px j => { b with px := setLimb b.px j v }
  | .py j => { b with py := setLimb b.py j v }
  | .qx j => { b with qx := setLimb b.qx j v }
  | .qy j => { b with qy := setLimb b.qy j v }
  | .cmd | .status | .ctrl | .pvalid | .rx _ | .ry _ | .reserved => b

/-- A host write of a register. CMD issues a command or is dropped (R140, R141); STATUS and CTRL are accepted while
busy (R52, R53); an operand write while busy is dropped (R90); read-only registers and reserved offsets ignore the
write (R86, R87). -/
def writeReg (b : Block Ext) (r : Reg) (v : Word) : Block Ext :=
  match r with
  | .cmd => if b.status.busy then rejectCommand b else accept v b
  | .status => { b with status := statusAfterWrite b.status v }
  | .ctrl => { b with ie := v.getLsbD 0 }
  | r => if isOperand r then (if b.status.busy then rejectOperand b else storeOperand b r v) else b

/-- The only admitted access: 8 bytes at an offset that is a multiple of 8 (R85). -/
def admitted (off : BitVec 12) (bytes : Nat) : Bool := bytes == 8 && off.toNat % 8 == 0

/-- A host read (R85, R86, R91). No read changes the block (R88). -/
def hostRead (off : BitVec 12) (bytes : Nat) (s : State) : Host.Outcome State Fault Refusal :=
  if admitted off bytes then
    if s.status.busy && isData (regAt off) then
      .next { s with response := some (Config.busyRead s.drawn s.toBlock off), drawn := s.drawn + 1 }
    else .next { s with response := some (readReg s.toBlock (regAt off)) }
  else .fault (.hostBusError off bytes)

/-- A host write (R85 to R90). -/
def hostWrite (off : BitVec 12) (bytes : Nat) (v : Word) (s : State) : Host.Outcome State Fault Refusal :=
  if admitted off bytes then .next { s with toBlock := writeReg s.toBlock (regAt off) v, response := none }
  else .fault (.hostBusError off bytes)

/-- The reset input (R310, R311): every piece of the block's state at its reset value, a pending command abandoned.
The schedule and the count of draws are not the block's and go on (log 11). -/
def resetInput (s : State) : State := { s with toBlock := Block.reset, response := none }

/-- The window's address decoder: the byte offset of a host address inside the window at BASE_ADDR, none outside it
(R80; log 13). -/
def windowOffset (c : Params Ext) (addr : Nat) : Option (BitVec 12) :=
  if c.baseAddr ≤ addr ∧ addr < c.baseAddr + 4096 then some (BitVec.ofNat 12 (addr - c.baseAddr)) else none

/-- The byte at a byte offset of the window, the bytes of a register little-endian (R83). -/
def windowByte (b : Block Ext) (off : BitVec 12) : BitVec 8 := byteOf (readReg b (regAt off)) (off.toNat % 8)

end Sys2Proof.Machine
end

