-- ==== Sys2Proof/Machine/Step.lean ====
section
/-! DEFINITION. One step of the machine: the next event of the schedule, or, where none is left, the engine's turn. -/

namespace Sys2Proof.Machine

/-- What one event does. -/
def stepEvent (e : Event) (s : State) : Host.Outcome State Fault Refusal :=
  match e with
  | .read off bytes => hostRead off bytes s
  | .write off bytes v => hostWrite off bytes v s
  | .engine => engineStep s
  | .reset => .next (resetInput s)

/-- One step. The schedule says which agent moves (R41, R92; log 3); with nothing scheduled the engine, "always
enabled while BUSY = 1" (R142), takes its turn. -/
def step (s : State) : Host.Outcome State Fault Refusal :=
  match s.schedule with
  | [] => engineStep s
  | e :: rest => stepEvent e { s with schedule := rest }

/-- The state in which the given command word has been accepted (R140) and the engine moves next (log 8). -/
def State.withFetchWord (s : State) (nbits w : Nat) : State :=
  { s with toBlock := accept (tableWord nbits w) s.toBlock, schedule := .engine :: s.schedule }

end Sys2Proof.Machine
end

