-- ==== Sys2Proof/Machine/Assembler.lean ====
section
/-! DEFINITION. The assembler syntax of 30_encoding.md R123: the written form of a command, and the command a line of
text stands for (mnemonics and register names case-insensitive). -/

namespace Sys2Proof.Machine

/-- The name R123 gives point register n: T0..T7, E0..E3, X, Y; PR14 and PR15 have only their numbers. -/
def pointName (n : Nat) : String :=
  if n < 8 then "T" ++ toString n
  else if n < 12 then "E" ++ toString (n - 8)
  else if n = 12 then "X"
  else if n = 13 then "Y"
  else "PR" ++ toString n

def scalarName : ScalarSel → String
  | .ka => "KA"
  | .kb => "KB"

def destName : PointDest → String
  | .x => "X"
  | .y => "Y"

/-- P, Q or G; AS = 3 names no source and has no written form. -/
def sourceName (src : BitVec 2) : Option String :=
  if src = 0#2 then some "P" else if src = 1#2 then some "Q" else if src = 2#2 then some "G" else none

/-- A command as R123 writes it. -/
def showInstr : Instr → Option String
  | .nop => some "NOP"
  | .mask s => some ("MASK " ++ scalarName s)
  | .mul => some "MUL"
  | .mulGen => some "MUL_GEN"
  | .simul => some "SIMUL"
  | .scrub => some "SCRUB"
  | .decomp s => some ("DECOMP " ++ scalarName s)
  | .base e phi src =>
    (sourceName src).map fun p => "BASE E" ++ toString e.toNat ++ ", " ++ p ++ (if phi then ", PHI" else "")
  | .gent2 => some "GENT2"
  | .gent4 => some "GENT4"
  | .recode2 => some "RECODE2"
  | .recode4 => some "RECODE4"
  | .sel2 idx d => some ("SEL2 " ++ toString idx.toNat ++ ", " ++ destName d)
  | .sel4 idx d => some ("SEL4 " ++ toString idx.toNat ++ ", " ++ destName d)
  | .ladder2 => some "LADDER2"
  | .ladder4 => some "LADDER4"
  | .dbl => some "DBL"
  | .add => some "ADD"
  | .correct => some "CORRECT"
  | .cofactor => some "COFACTOR"
  | .affine psrc => some ("AFFINE " ++ pointName psrc.toNat)

/-- A token collected so far, if it is not empty. -/
def tokenOf (cur : List Char) : List (List Char) := if cur.isEmpty then [] else [cur]

/-- The tokens of a line, in capitals: words between blanks, and each comma. -/
def tokensFrom : List Char → List Char → List (List Char)
  | [], cur => tokenOf cur
  | ch :: rest, cur =>
    if ch = ' ' then tokenOf cur ++ tokensFrom rest []
    else if ch = ',' then tokenOf cur ++ [','] :: tokensFrom rest []
    else tokensFrom rest (cur ++ [ch.toUpper])

/-- A decimal number. -/
def decimal (cs : List Char) : Option Nat :=
  if cs.isEmpty || !cs.all Char.isDigit then none
  else some (cs.foldl (fun n ch => 10 * n + (ch.toNat - '0'.toNat)) 0)

/-- A decimal number below `bound`. -/
def decimalBelow (bound : Nat) (cs : List Char) : Option Nat := (decimal cs).filter (· < bound)

def parseScalar (cs : List Char) : Option ScalarSel :=
  if cs = ['K', 'A'] then some .ka else if cs = ['K', 'B'] then some .kb else none

def parseDest (cs : List Char) : Option PointDest :=
  if cs = ['X'] then some .x else if cs = ['Y'] then some .y else none

def parseSource (cs : List Char) : Option (BitVec 2) :=
  if cs = ['P'] then some 0#2 else if cs = ['Q'] then some 1#2 else if cs = ['G'] then some 2#2 else none

/-- `E<e>`, e = 0..3. -/
def parseBase : List Char → Option (BitVec 2)
  | 'E' :: ds => (decimalBelow 4 ds).map (BitVec.ofNat 2)
  | _ => none

/-- `<pr>`: `PR<n>`, `T<j>` (n = j), `E<e>` (n = 8+e), `X` (12) or `Y` (13). -/
def parsePoint : List Char → Option (BitVec 4)
  | ['X'] => some 12#4
  | ['Y'] => some 13#4
  | 'P' :: 'R' :: ds => (decimalBelow 16 ds).map (BitVec.ofNat 4)
  | 'T' :: ds => (decimalBelow 8 ds).map (BitVec.ofNat 4)
  | 'E' :: ds => (decimalBelow 4 ds).map fun e => BitVec.ofNat 4 (8 + e)
  | _ => none

/-- `<i>`, decimal 0..127. -/
def parseIndex (cs : List Char) : Option (BitVec 7) := (decimalBelow 128 cs).map (BitVec.ofNat 7)

/-- The commands written without operands. -/
def plainCommands : List (String × Instr) :=
  [("NOP", .nop), ("MUL", .mul), ("MUL_GEN", .mulGen), ("SIMUL", .simul), ("SCRUB", .scrub), ("GENT2", .gent2),
   ("GENT4", .gent4), ("RECODE2", .recode2), ("RECODE4", .recode4), ("LADDER2", .ladder2), ("LADDER4", .ladder4),
   ("DBL", .dbl), ("ADD", .add), ("CORRECT", .correct), ("COFACTOR", .cofactor)]

/-- The operands after a mnemonic that takes some. -/
def parseOperands (mnemonic : String) (ops : List (List Char)) : Option Instr :=
  match mnemonic, ops with
  | "MASK", [k] => (parseScalar k).map .mask
  | "DECOMP", [k] => (parseScalar k).map .decomp
  | "BASE", [e, [','], p] => do return .base (← parseBase e) false (← parseSource p)
  | "BASE", [e, [','], p, [','], ['P', 'H', 'I']] => do return .base (← parseBase e) true (← parseSource p)
  | "SEL2", [i, [','], d] => do return .sel2 (← parseIndex i) (← parseDest d)
  | "SEL4", [i, [','], d] => do return .sel4 (← parseIndex i) (← parseDest d)
  | "AFFINE", [p] => (parsePoint p).map .affine
  | _, _ => none

/-- The command a line of assembler text stands for, none where the text has no form of R123. -/
def parseInstr (line : String) : Option Instr :=
  match tokensFrom line.toList [] with
  | [] => none
  | [m] => plainCommands.lookup (String.ofList m)
  | m :: ops => parseOperands (String.ofList m) ops

end Sys2Proof.Machine
end

