-- ==== Sys2Proof/Machine/Execute.lean ====
section
/-! DEFINITION. `perform(d)` and `execute` of 40_control.md R143 for ANY configuration over ANY type Ext
(R9): what a claim about the curve layer, or a run at a test configuration, is stated in. `exec` is this at the
machine's own configuration (Laws/Execute.lean proves it). -/

namespace Sys2Proof.Machine

variable {Ext : Type}

/-- The command's own rule (R143's `perform`). -/
def perform (c : Params Ext) : Instr → Block Ext → Option (Block Ext)
  | .nop => performNop
  | .mask sel => performMask sel
  | .mul => performMul c
  | .mulGen => performMulGen c
  | .simul => performSimul c
  | .scrub => performScrub
  | .decomp sel => performDecomp c sel
  | .base e phi src => performBase c e phi src
  | .gent2 => performGent2 c
  | .gent4 => performGent4 c
  | .recode2 => performRecode2
  | .recode4 => performRecode4
  | .sel2 idx d => performSel2 c idx.toNat d
  | .sel4 idx d => performSel4 c idx.toNat d
  | .ladder2 => performLadder2 c
  | .ladder4 => performLadder4 c
  | .dbl => performDbl c
  | .add => performAdd c
  | .correct => performCorrect c
  | .cofactor => performCofactor c
  | .affine psrc => performAffine c psrc.toNat

/-- A decoded command, executed and completed. -/
def execute (c : Params Ext) (i : Instr) (b : Block Ext) : Block Ext := executeInstr i (perform c i) b

/-- R143 and R142 whole: decode the pending word, execute it, complete. -/
def executeWord (c : Params Ext) (w : Word) (b : Block Ext) : Block Ext :=
  match decode w with
  | .cmd i => execute c i b
  | .illegal _ => fail .illegal b
  | .fieldErr _ => fail .field b

/-- The result code a word ends with: the first of E_ILLEGAL, E_FIELD, E_UNINIT that applies (R281, R282), a function
of the word and of PV alone. -/
def resultCode (w : Word) (b : Block Ext) : ECode :=
  match decode w with
  | .illegal _ => .illegal
  | .fieldErr _ => .field
  | .cmd i => if (reads i).all b.valid then .ok else .uninit

/-- R319: cycles from acceptance to completion. No rule of the machine depends on it. -/
def latencyOf (c : Params Ext) (w : Word) (b : Block Ext) : ℕ+ :=
  if resultCode w b = .ok then c.latency (fieldOpc w) else c.latencyError

end Sys2Proof.Machine
end

