-- ==== Sys2Proof/Machine/HostProgram.lean ====
section
/-! DEFINITION. The host-side pseudo-instructions of 30_encoding.md R124, as the events they stand for, and the command
sequences of 40_control.md R150 as lists of commands a host could issue one by one. -/

namespace Sys2Proof.Machine

/-- `WR <reg>, <v>`: `MemWrite(off(reg), 8, v)`. -/
def wr (r : Reg) (v : Word) : List Event :=
  match regOffset r with
  | some off => [.write off 8 v]
  | none => []

/-- `RD <reg>`: `MemRead(off(reg), 8)`. -/
def rd (r : Reg) : List Event :=
  match regOffset r with
  | some off => [.read off 8]
  | none => []

/-- `WR128 U<e>, <v>`: the low word, then the high word. -/
def wr128 (e : Fin 4) (v : U128) : List Event := wr (.uLo e) (limb v 0) ++ wr (.uHi e) (limb v 1)

/-- `WR256 K<A|B>, <v>`: words 0 to 3 in order. -/
def wr256 (s : ScalarSel) (v : U256) : List Event :=
  (List.finRange 4).flatMap fun j =>
    match s with
    | .ka => wr (.ka j) (limb v j)
    | .kb => wr (.kb j) (limb v j)

/-- `POLL`: repeat `RD STATUS` until BUSY reads 0. Its last read comes after the engine's turn, and the reads before
it change nothing (R88), so the schedule holds the turn and the last read (DEDUCED: log 9). -/
def poll : List Event := .engine :: rd .status

/-- `ISSUE <command>`: `WR CMD, encode(<command>)`; `POLL`. -/
def issue (i : Instr) : List Event := wr .cmd (encode i) ++ poll

/-- Commands executed one after another, each in a step of its own. -/
def runInstrs : List Instr → State → Host.Outcome State Fault Refusal
  | [], s => .next s
  | i :: rest, s =>
    match exec i s with
    | .next t => runInstrs rest t
    | .fault r => .fault r
    | .refused r => .refused r

/-- R225 spelled out: `SEL2 126, X`, then for i = 124, 122, ..., 0: `SEL2 i, Y`; `DBL`; `DBL`; `ADD`. -/
def ladder2Commands : List Instr :=
  .sel2 126 .x :: (List.range 63).flatMap fun j => [.sel2 (BitVec.ofNat 7 (124 - 2 * j)) .y, .dbl, .dbl, .add]

/-- R226 spelled out: `SEL4 126, X`, then for i = 125, ..., 0: `SEL4 i, Y`; `DBL`; `ADD`. -/
def ladder4Commands : List Instr :=
  .sel4 126 .x :: (List.range 126).flatMap fun j => [.sel4 (BitVec.ofNat 7 (125 - j)) .y, .dbl, .add]

/-- R260 spelled out (R261 with AS = 2 for AS = 0). -/
def mulCommands (src : BitVec 2) : List Instr :=
  [.decomp .ka, .base 0 false src, .base 1 true src, .gent2, .recode2, .ladder2, .correct, .cofactor, .affine 12, .scrub]

/-- R262 spelled out. -/
def simulCommands : List Instr :=
  [.decomp .ka, .decomp .kb, .base 0 false 0, .base 1 true 0, .base 2 false 1, .base 3 true 1, .gent4, .recode4, .ladder4,
   .correct, .cofactor, .affine 12, .scrub]

end Sys2Proof.Machine
end

