-- ==== Sys2Proof/Machine/Values.lean ====
section
/-! DEFINITION. What the registers MEAN as numbers and as group elements: the value of a scalar, the digits of the
recoded subscalars, and the sums the ladders build (00_scope.md R10; 42_recoding.md R181, R183; 43_table_build.md R201,
R203; 44_ladder.md R230, R231). The machine uses none of it; claims do. -/

namespace Sys2Proof.Machine

/-- int(K) = K[0] + K[1]·2^64 + K[2]·2^128 + K[3]·2^192 (R10). -/
def intOf (k : U256) : Nat :=
  (limb k 0).toNat + (limb k 1).toNat * 2 ^ 64 + (limb k 2).toNat * 2 ^ 128 + (limb k 3).toNat * 2 ^ 192

/-- (−1)^f · x: a sign bit of 1 means negate (R15). -/
def signed {E : Type} [AddCommGroup E] (f : Bool) (x : E) : E := if f then -x else x

/-- s_t = +1 when U0[t] = 1 and −1 when U0[t] = 0 (R181, R183). -/
def digitSign (u0 : U128) (t : Nat) : Int := if u0.getLsbD t then 1 else -1

/-- s_t · V[t], V's digit at t (R181, R183). -/
def digit (u0 v : U128) (t : Nat) : Int := if v.getLsbD t then digitSign u0 t else 0

/-- val_a = Σ_{t < len} s_t·2^t (R181 with len = 128, R183 with len = 127). -/
def signValue (len : Nat) (u0 : U128) : Int := ∑ t ∈ Finset.range len, digitSign u0 t * 2 ^ t

/-- val_V = Σ_{t < len} s_t·V[t]·2^t (R181, R183). -/
def digitValue (len : Nat) (u0 v : U128) : Int := ∑ t ∈ Finset.range len, digit u0 v t * 2 ^ t

/-- The lane a recoder makes of v under the sign scalar's complement: n iterations (R180, R182). -/
def recodeLane (n : Nat) (an v : U128) : U128 := (List.range n).foldl (fun x p => recodeBit an p x) v

/-- RECODE2's U1' from the original U0 and U1 (R180). -/
def recode2Lane (u0 v : U128) : U128 := recodeLane 127 (~~~recodeSign 127 u0) v

/-- RECODE4's U1', U2' or U3' from the original U0 and that register (R182). -/
def recode4Lane (u0 v : U128) : U128 := recodeLane 126 (~~~recodeSign 126 u0) v

section Group
variable {E : Type} [AddCommGroup E]

/-- Entry k of the dual table (R201). -/
def dualEntry (A B : E) (k : Nat) : E :=
  match k with
  | 0 => 3 • A
  | 1 => 3 • A + B
  | 2 => 3 • A + 2 • B
  | 3 => 3 • A + 3 • B
  | 4 => A
  | 5 => A - B
  | 6 => A + 2 • B
  | _ => A + B

/-- Entry k of the quad table: A + (bit0 of k ? B : 0) + (bit1 ? C : 0) + (bit2 ? D : 0) (R203). -/
def quadEntry (A B C D : E) (k : Nat) : E :=
  A + (if k.testBit 0 then B else 0) + (if k.testBit 1 then C else 0) + (if k.testBit 2 then D else 0)

/-- The dual digit at t: s_t·(A + U1[t]·B). -/
def dualDigit (u0 u1 : U128) (A B : E) (t : Nat) : E := digitSign u0 t • A + digit u0 u1 t • B

/-- The window pair (i+1, i): 2·s_{i+1}·(A + U1[i+1]·B) + s_i·(A + U1[i]·B) (R230). -/
def dualWindow (u0 u1 : U128) (A B : E) (i : Nat) : E :=
  2 • dualDigit u0 u1 A B (i + 1) + dualDigit u0 u1 A B i

/-- The dual ladder's X after position i: Σ_{i ≤ t < 128} 2^(t−i)·(digit at t) (R231). -/
def dualSum (u0 u1 : U128) (A B : E) (i : Nat) : E :=
  ∑ t ∈ Finset.Ico i 128, (2 ^ (t - i) : Nat) • dualDigit u0 u1 A B t

/-- The quad digit at t: s_t·(A + U1[t]·B + U2[t]·C + U3[t]·D) (R222). -/
def quadDigit (u0 u1 u2 u3 : U128) (A B C D : E) (t : Nat) : E :=
  digitSign u0 t • A + digit u0 u1 t • B + digit u0 u2 t • C + digit u0 u3 t • D

/-- The quad ladder's X after position i: Σ_{i ≤ t < 127} 2^(t−i)·(digit at t) (R231). -/
def quadSum (u0 u1 u2 u3 : U128) (A B C D : E) (i : Nat) : E :=
  ∑ t ∈ Finset.Ico i 127, (2 ^ (t - i) : Nat) • quadDigit u0 u1 u2 u3 A B C D t

end Group

end Sys2Proof.Machine
end

