-- ==== Sys2Proof/Machine/Properties.lean ====
section
/-! DEFINITION. The named properties a claim may ASSUME of the configuration (00_scope.md R28 to R33), for any
configuration, and the condition "no add is exceptional" (R30, R205, R231). None is a property of the machine. -/

namespace Sys2Proof.Machine

/-- The maps of R28 into the curve group E, and which operands they are defined on. -/
structure CurveGroup (Ext E : Type) where
  val : Ext → E
  valid : Ext → Prop
  valAff : Aff → E
  onCurve : Aff → Prop

section Group
variable {Ext E : Type} [AddCommGroup E]

/-- PROP-GROUP (R28): E has order 4·q, with a subgroup of prime order q. -/
def PropGroup (c : Params Ext) (E : Type) [AddCommGroup E] : Prop :=
  c.q.Prime ∧ Nat.card E = 4 * c.q ∧ ∃ H : AddSubgroup E, Nat.card H = c.q

/-- PROP-PT (R29). The results are valid, or on the curve, too (DEDUCED, since R29 speaks of their values: log 14). -/
def PropPt (c : Params Ext) (g : CurveGroup Ext E) : Prop :=
  (∀ x, g.valid x → g.valid (c.neg x) ∧ g.val (c.neg x) = -g.val x) ∧
  (∀ x, g.valid x → g.valid (c.dbl x) ∧ g.val (c.dbl x) = 2 • g.val x) ∧
  (∀ p, g.onCurve p → g.valid (c.expand p) ∧ g.val (c.expand p) = g.valAff p) ∧
  (∀ x, g.valid x → g.onCurve (c.affine x) ∧ g.valAff (c.affine x) = g.val x) ∧
  (∀ p, g.onCurve p → c.affine (c.expand p) = p)

/-- An add of operands of these values is not exceptional (R30, with the spec's margin `a ≠ -b`), or ADD_COMPLETE. -/
def Unexceptional (c : Params Ext) (a b : E) : Prop :=
  c.addComplete = true ∨ (a ≠ b ∧ a ≠ 0 ∧ b ≠ 0 ∧ a ≠ -b)

/-- PROP-ADD (R30). The sum is valid too (DEDUCED: log 14). -/
def PropAdd (c : Params Ext) (g : CurveGroup Ext E) : Prop :=
  ∀ x y, g.valid x → g.valid y → Unexceptional c (g.val x) (g.val y) →
    g.valid (c.add x y) ∧ g.val (c.add x y) = g.val x + g.val y

/-- PROP-MORPH (R31). φ(P) is on the curve too (DEDUCED: log 14). -/
def PropMorph (c : Params Ext) (g : CurveGroup Ext E) : Prop :=
  ∀ p, g.onCurve p → g.onCurve (c.morph p) ∧ g.valAff (c.morph p) = c.eigenvalue • g.valAff p

/-- PROP-DECOMP (R32): (1) both subscalars below 2^126, (2) the congruence modulo q, (3) a ≥ 1. -/
def PropDecomp (c : Params Ext) : Prop :=
  ∀ k : U256, 0 < intOf k → intOf k < c.q →
    let d := c.decompose k
    (d.2.1.toNat < 2 ^ 126 ∧ d.2.2.2.toNat < 2 ^ 126) ∧
    ((intOf k : Int) ≡ signed d.1 (d.2.1.toNat : Int) + signed d.2.2.1 ((c.eigenvalue * d.2.2.2.toNat : Nat) : Int)
      [ZMOD c.q]) ∧
    1 ≤ d.2.1.toNat

/-- PROP-INPUT (R33): 0 < k < q, and the point on the curve. -/
def PropInput (c : Params Ext) (g : CurveGroup Ext E) (k : U256) (p : Aff) : Prop :=
  0 < intOf k ∧ intOf k < c.q ∧ g.onCurve p

/-- The dual table's adds are not exceptional: the pairs of R205. -/
def DualTableAddsOk (c : Params Ext) (A B : E) : Prop :=
  Unexceptional c (2 • A) A ∧ Unexceptional c A B ∧ Unexceptional c A (-B) ∧ Unexceptional c A (2 • B) ∧
  Unexceptional c (3 • A) B ∧ Unexceptional c (3 • A) (2 • B) ∧ Unexceptional c (3 • A + B) (2 • B)

/-- The quad table's adds are not exceptional: the pairs of R205. -/
def QuadTableAddsOk (c : Params Ext) (A B C D : E) : Prop :=
  Unexceptional c A B ∧ Unexceptional c A C ∧ Unexceptional c (A + B) C ∧ Unexceptional c A D ∧
  Unexceptional c (A + B) D ∧ Unexceptional c (A + C) D ∧ Unexceptional c (A + B + C) D

/-- Every add of LADDER2 is not exceptional: at i = 124, 122, ..., 0 the operands are 4·X and the window (R225). -/
def DualLadderAddsOk (c : Params Ext) (u0 u1 : U128) (A B : E) : Prop :=
  ∀ j < 63, Unexceptional c (4 • dualSum u0 u1 A B (2 * j + 2)) (dualWindow u0 u1 A B (2 * j))

/-- Every add of LADDER4 is not exceptional: at i = 125, ..., 0 the operands are 2·X and the digit (R226). -/
def QuadLadderAddsOk (c : Params Ext) (u0 u1 u2 u3 : U128) (A B C D : E) : Prop :=
  ∀ i < 126, Unexceptional c (2 • quadSum u0 u1 u2 u3 A B C D (i + 1)) (quadDigit u0 u1 u2 u3 A B C D i)

/-- The add of CORRECT, made only when LSB = 1, is not exceptional (R227). -/
def CorrectAddOk (c : Params Ext) (lsb : Bool) (x e0 : E) : Prop := lsb = true → Unexceptional c x e0

/-- No add of a MUL run is exceptional: table, ladder on the recoded subscalars, correction (R263, R264). -/
def MulAddsOk (c : Params Ext) (a b : U128) (E0 E1 : E) : Prop :=
  DualTableAddsOk c E0 E1 ∧
  DualLadderAddsOk c (recodeSign 127 a) (recode2Lane a b) E0 E1 ∧
  CorrectAddOk c (recodeLsb a) (dualSum (recodeSign 127 a) (recode2Lane a b) E0 E1 0) E0

/-- No add of a SIMUL run is exceptional (R265, R266). -/
def SimulAddsOk (c : Params Ext) (a0 a1 b0 b1 : U128) (E0 E1 E2 E3 : E) : Prop :=
  QuadTableAddsOk c E0 E1 E2 E3 ∧
  QuadLadderAddsOk c (recodeSign 126 a0) (recode4Lane a0 a1) (recode4Lane a0 b0) (recode4Lane a0 b1) E0 E1 E2 E3 ∧
  CorrectAddOk c (recodeLsb a0)
    (quadSum (recodeSign 126 a0) (recode4Lane a0 a1) (recode4Lane a0 b0) (recode4Lane a0 b1) E0 E1 E2 E3 0) E0

end Group

end Sys2Proof.Machine
end

