-- ==== Sys2Proof/Machine/Trace.lean ====
section
/-! DEFINITION. The trace each command's rule LISTS (the "Trace:" lines of 40_control.md to 45_scalar_multiplication.md,
R145), a function of the command alone. The machine does not use it: it records its trace where each capability is
called, and the claim of constant time (R145, R147) is that the two agree. -/

namespace Sys2Proof.Machine

/-- The scan of R221 and the conditional negation into PR[dst]: 17 events (R220, R222). -/
def selectTrace (dst : Nat) : List TraceEvent :=
  (List.range 8).flatMap (fun j => [.genMask j, .setMask j]) ++ [.condNeg dst]

def doubleTrace : List TraceEvent := [.dbl (.pr 12) (.pr 12)]

def addTrace : List TraceEvent := [.add (.pr 12) (.pr 12) (.pr 13)]

/-- R164's Trace line. -/
def baseTrace (e : BitVec 2) (phi : Bool) (src : BitVec 2) : List TraceEvent :=
  (if phi then [.morph src] else []) ++ [.expand, .condNeg (8 + e.toNat)]

/-- R200's Trace line. -/
def gent2Trace : List TraceEvent :=
  [.dbl .scratchT (.pr 8), .add (.pr 0) .scratchT (.pr 8), .copy (.pr 4) (.pr 8), .add (.pr 7) (.pr 8) (.pr 9), .neg,
   .add (.pr 5) (.pr 8) .scratchN, .dbl .scratchU (.pr 9), .add (.pr 6) (.pr 8) .scratchU,
   .add (.pr 1) (.pr 0) (.pr 9), .add (.pr 2) (.pr 0) .scratchU, .add (.pr 3) (.pr 1) .scratchU]

/-- R202's Trace line. -/
def gent4Trace : List TraceEvent :=
  [.copy (.pr 0) (.pr 8), .add (.pr 1) (.pr 8) (.pr 9), .add (.pr 2) (.pr 8) (.pr 10), .add (.pr 3) (.pr 1) (.pr 10),
   .add (.pr 4) (.pr 8) (.pr 11), .add (.pr 5) (.pr 1) (.pr 11), .add (.pr 6) (.pr 2) (.pr 11),
   .add (.pr 7) (.pr 3) (.pr 11)]

/-- R180's and R182's Trace lines: RecodeInit(m), then RecodeStep(p) for p below n. -/
def recodeTrace (m n : Nat) : List TraceEvent := .recodeInit m :: (List.range n).map .recodeStep

/-- R225's Trace line. -/
def ladder2Trace : List TraceEvent :=
  selectTrace 12 ++ (List.replicate 63 (selectTrace 13 ++ doubleTrace ++ doubleTrace ++ addTrace)).flatten

/-- R226's Trace line. -/
def ladder4Trace : List TraceEvent :=
  selectTrace 12 ++ (List.replicate 126 (selectTrace 13 ++ doubleTrace ++ addTrace)).flatten

/-- The end MUL, MUL_GEN and SIMUL share: CORRECT, COFACTOR, AFFINE X, SCRUB. -/
def tailTrace : List TraceEvent :=
  [.condAdd (.pr 12) (.pr 12) (.pr 8), .dbl (.pr 12) (.pr 12), .dbl (.pr 12) (.pr 12), .affine 12, .clear]

/-- R260's Trace line, with Morph(src): src = 0 for MUL, 2 for MUL_GEN (R261). -/
def mulTrace (src : BitVec 2) : List TraceEvent :=
  [.decomp .ka, .expand, .condNeg 8, .morph src, .expand, .condNeg 9] ++ gent2Trace ++ recodeTrace 2 127 ++
    ladder2Trace ++ tailTrace

/-- R262's Trace line. -/
def simulTrace : List TraceEvent :=
  [.decomp .ka, .decomp .kb, .expand, .condNeg 8, .morph 0, .expand, .condNeg 9, .expand, .condNeg 10, .morph 1,
   .expand, .condNeg 11] ++ gent4Trace ++ recodeTrace 4 126 ++ ladder4Trace ++ tailTrace

/-- The trace of a command that ends with E_OK. -/
def traceOf : Instr → List TraceEvent
  | .nop => []
  | .mask s => [.maskK s]
  | .mul => mulTrace 0
  | .mulGen => mulTrace 2
  | .simul => simulTrace
  | .scrub => [.clear]
  | .decomp s => [.decomp s]
  | .base e phi src => baseTrace e phi src
  | .gent2 => gent2Trace
  | .gent4 => gent4Trace
  | .recode2 => recodeTrace 2 127
  | .recode4 => recodeTrace 4 126
  | .sel2 _ .x | .sel4 _ .x => selectTrace 12
  | .sel2 _ .y | .sel4 _ .y => selectTrace 13
  | .ladder2 => ladder2Trace
  | .ladder4 => ladder4Trace
  | .dbl => doubleTrace
  | .add => addTrace
  | .correct => [.condAdd (.pr 12) (.pr 12) (.pr 8)]
  | .cofactor => doubleTrace ++ doubleTrace
  | .affine psrc => [.affine psrc.toNat]

end Sys2Proof.Machine
end

