-- ==== Sys2Proof/Safety.lean ====
section
/-! DEFINITION. The terms claims are stated in: how a command ends, what it leaves alone as the host and the commands
can see it, the machine's invariant, and what two runs agree on when only secrets differ. -/

namespace Sys2Proof.Machine

/-- The command completed with this code (R142, R281): BUSY = 0, DONE = 1, ECODE, nothing pending, CERR and WERR
kept. -/
def EndsWith (code : ECode) (s t : State) : Prop :=
  t.status = { s.status with busy := false, done := true, ecode := code } ∧ t.pending = none

/-- Every register of the window but those of `rs`, and every point register but those of `ps`, reads as before; so
do the schedule, the last response and the draws, which no command touches. -/
def FrameExcept (rs : List Reg) (ps : List Nat) (s t : State) : Prop :=
  (∀ r, r ∉ rs → readReg t.toBlock r = readReg s.toBlock r) ∧
  (∀ n, n ∉ ps → t.point n = s.point n) ∧
  t.schedule = s.schedule ∧ t.response = s.response ∧ t.drawn = s.drawn

/-- The limb registers of a scalar, a subscalar, a slot pair. -/
def resultRegs : List Reg := (List.finRange 4).map .rx ++ (List.finRange 4).map .ry

def subscalarRegs (es : List (Fin 4)) : List Reg := es.flatMap fun e => [.uLo e, .uHi e]

/-- The lifecycle's part of the invariant: a command is pending exactly while BUSY = 1 (R57, R140, R142); then DONE =
0, ECODE = 0 (R140, R281), and the pending word is the one CMD reads back (R51, R141). -/
def LifecycleInv (s : State) : Prop :=
  s.pending.isSome = s.status.busy ∧
  (s.status.busy = true → s.status.done = false ∧ s.status.ecode = .ok ∧ s.pending = some s.cmd)

/-- The point registers' part: the table is written whole (R50); a table was built from E0 and E1, and X or Y comes from
a table (R144), and only SCRUB and reset take a value away (R48, R50), all at once. -/
def PointInv (s : State) : Prop :=
  (∀ j < 8, s.valid j = s.valid 0) ∧
  (s.valid 0 = true → s.valid 8 = true ∧ s.valid 9 = true) ∧
  (s.valid 12 = true ∨ s.valid 13 = true → s.valid 0 = true)

def MachineInv (s : State) : Prop := LifecycleInv s ∧ PointInv s

/-- Two states agree on all that is not secret: the control registers, which point registers hold a value, the trace,
and the schedule less the data it writes. Scalars, subscalars, signs, slots and points may differ (R145, R147). -/
def SamePublic (s s' : State) : Prop :=
  s.cmd = s'.cmd ∧ s.status = s'.status ∧ s.ie = s'.ie ∧ s.pending = s'.pending ∧ s.trace = s'.trace ∧
  s.drawn = s'.drawn ∧ (∀ n, s.valid n = s'.valid n)

/-- Two events that differ at most in the data written to an operand register. -/
def SameShape : Event → Event → Prop
  | .write off n v, .write off' n' v' => off = off' ∧ n = n' ∧ (isOperand (regAt off) = true ∨ v = v')
  | e, e' => e = e'

end Sys2Proof.Machine
end

