-- ==== Sys2Proof/Certificates/Slice0/Obligations.lean ====
section
/-! DEFINITION. What is claimed of the machine: one definition a statement, its docstring naming the rules it comes
from. -/

open Sys2Proof Sys2Proof.Machine

/-! ### The command word -/

/-- R111, R114, R118, R120: the decoder reads every operand of every well-formed command back from its word. -/
def Obligations.DecodeOfEncode : Prop := ∀ i : Instr, wellFormed i = true → decode (encode i) = .cmd i

/-- R113 "So one command has exactly one encoding", R116: a word that decodes to a command is that command's word, and
the command is well formed. -/
def Obligations.EncodeOfDecode : Prop := ∀ (w : Word) (i : Instr), decode w = .cmd i → wellFormed i = true ∧ encode i = w

/-- R114: "A command matches a row when (word AND mask) = match"; a word is illegal exactly when it matches no row (R112,
R113, R115); "No two rows match the same word". -/
def Obligations.WordsMatchAtMostOneRow : Prop :=
  (∀ w : Word, (∃ why, decode w = .illegal why) ↔ ∀ r ∈ opTable, w &&& r.mask ≠ r.pattern) ∧
  ∀ w : Word, ∀ r ∈ opTable, ∀ r' ∈ opTable, w &&& r.mask = r.pattern → w &&& r'.mask = r'.pattern → r = r'

/-- R125: its eleven examples, as words and as commands. -/
def Obligations.EncodingExamples : Prop :=
  ∀ p ∈ ([(0x0000000000007E16, .sel2 126 .x), (0x0000000000107C16, .sel2 124 .y), (0x0000000000107D17, .sel4 125 .y),
      (0x0000000001400011, .base 1 true 0), (0x0000000002800011, .base 2 false 1), (0x0000000003C00011, .base 3 true 1),
      (0x0000000004000011, .base 0 false 2), (0x0000000005400011, .base 1 true 2), (0x0000000000200001, .mask .kb),
      (0x0000000000200010, .decomp .kb), (0x00000000000C001E, .affine 12)] : List (Word × Instr)),
    encode p.2 = p.1 ∧ decode p.1 = .cmd p.2

/-- R123: every well-formed command has a written form, and the form stands for it. -/
def Obligations.AssemblerReadsBack : Prop :=
  ∀ i : Instr, wellFormed i = true → ∃ line, showInstr i = some line ∧ parseInstr line = some i

/-! ### Issuing, executing, completing -/

/-- R140: a CMD write while idle accepts the word; nothing else of the machine changes. -/
def Obligations.IdleCmdWriteAccepts : Prop :=
  ∀ (s : State) (w : Word), s.status.busy = false →
    ∃ t, hostWrite 0x000 8 w s = .next t ∧ t.cmd = w ∧ t.pending = some w ∧
      t.status = { s.status with busy := true, done := false, ecode := .ok } ∧
      (∀ r, r ≠ .cmd → r ≠ .status → readReg t.toBlock r = readReg s.toBlock r) ∧
      (∀ n, t.point n = s.point n)

/-- R141: a CMD write while busy is dropped and sets CERR; nothing else of the machine changes. -/
def Obligations.BusyCmdWriteDropped : Prop :=
  ∀ (s : State) (w : Word), s.status.busy = true →
    ∃ t, hostWrite 0x000 8 w s = .next t ∧ t.cmd = s.cmd ∧ t.pending = s.pending ∧
      t.status = { s.status with cerr := true } ∧
      (∀ r, r ≠ .status → readReg t.toBlock r = readReg s.toBlock r) ∧
      (∀ n, t.point n = s.point n)

/-- R142, R143, R281: the engine's one step completes the pending word with BUSY = 0, DONE = 1 and the code the word and
PV give it, whatever the word; with nothing pending it does nothing (R296, R312; log 23). -/
def Obligations.EngineStepCompletes : Prop :=
  (∀ (s : State) (w : Word), s.pending = some w →
    ∃ t, engineStep s = .next t ∧ EndsWith (resultCode w s.toBlock) s t ∧
      t.schedule = s.schedule ∧ t.response = s.response ∧ t.drawn = s.drawn) ∧
  ∀ s : State, s.pending = none → engineStep s = .next s ∧ (s.schedule = [] → step s = .next s)

/-- R143, R268, R281: "a command that ends in error changes no state except STATUS"; its trace is empty (R145). -/
def Obligations.ErrorsChangeOnlyStatus : Prop :=
  ∀ (s : State) (w : Word), s.pending = some w → resultCode w s.toBlock ≠ .ok →
    ∃ t, engineStep s = .next t ∧ EndsWith (resultCode w s.toBlock) s t ∧ t.trace = [] ∧
      FrameExcept [.status] [] s t

/-- R112, R115 (and R113's unused fields): an illegal word completes with E_ILLEGAL and changes nothing else. -/
def Obligations.IllegalWordsReported : Prop :=
  ∀ (s : State) (w : Word), s.pending = some w →
    (w.extractLsb' 27 37 ≠ 0#37 ∨ w.getLsbD 15 = true ∨
      (5 ≤ (fieldOpc w).toNat ∧ (fieldOpc w).toNat ≤ 7) ∨ (9 ≤ (fieldOpc w).toNat ∧ (fieldOpc w).toNat ≤ 15) ∨
      0x1F ≤ (fieldOpc w).toNat ∨ ∃ r ∈ opTable, r.opc = fieldOpc w ∧ w &&& r.mask ≠ r.pattern) →
    ∃ t, engineStep s = .next t ∧ EndsWith .illegal s t ∧ FrameExcept [.status] [] s t

/-- R116: exactly BASE with AS = 3 and AFFINE with PSRC = 14 or 15 are reserved field values; their words complete with
E_FIELD and change nothing else, whatever PV (R282). (That `exec` of the ill-formed term ends so too is the model's: log
16.) -/
def Obligations.ReservedFieldsReported : Prop :=
  (∀ i : Instr, wellFormed i = false ↔
    (∃ e phi, i = .base e phi 3) ∨ i = .affine 14 ∨ i = .affine 15) ∧
  ∀ (s : State) (i : Instr), wellFormed i = false → s.pending = some (encode i) →
    ∃ t, engineStep s = .next t ∧ exec i s = .next t ∧ EndsWith .field s t ∧ FrameExcept [.status] [] s t

/-- R48, R143, R144: a command that reads a point register without a value ends with E_UNINIT before it changes any
state. -/
def Obligations.MissingPointReported : Prop :=
  ∀ (s : State) (i : Instr) (n : Nat), wellFormed i = true → n ∈ reads i → s.valid n = false →
    ∃ t, exec i s = .next t ∧ EndsWith .uninit s t ∧ t.trace = [] ∧ FrameExcept [.status] [] s t

/-- R120, R142, R143: when the pending word decodes to a command, a step in which the engine moves is that command's
`exec`, on the state with the engine's turn taken off the schedule. (The schedule, and that the engine moves where it
is empty, are the model's choice: log 3.) -/
def Obligations.StepRunsDecodedCommand : Prop :=
  ∀ (s : State) (w : Word) (i : Instr), s.pending = some w → decode w = .cmd i →
    (s.schedule = [] → step s = exec i s) ∧
    ∀ rest, s.schedule = .engine :: rest → step s = exec i { s with schedule := rest }

/-- R140 to R143: the word of a well-formed command, accepted with the engine's turn next, is run by the next step
(`withFetchWord` is the model's way to place a command: log 8). -/
def Obligations.AcceptedCommandRuns : Prop :=
  ∀ (s : State) (i : Instr), wellFormed i = true →
    step (s.withFetchWord 64 (encode i).toNat) = exec i { s with toBlock := accept (encode i) s.toBlock }

/-- R124, R140, R142: `ISSUE <command>` on an idle block is acceptance, the command, and a STATUS read that sees BUSY =
0 (POLL as the engine's turn and one read is the model's: log 9). -/
def Obligations.IssueRunsTheCommand : Prop :=
  ∀ (s : State) (i : Instr), wellFormed i = true → s.status.busy = false →
    ∃ t, exec i { s with toBlock := accept (encode i) s.toBlock, schedule := rd .status, response := none } = .next t ∧
      t.status.busy = false ∧
      core.run 3 { s with schedule := issue i } =
        .next { t with schedule := [], response := some (statusWord t.status) }

/-! ### Housekeeping, masking, decomposition, bases -/

/-- R148: NOP has no effect but the lifecycle's, and the empty trace. -/
def Obligations.NopOnlyCompletes : Prop :=
  ∀ s : State, ∃ t, exec .nop s = .next t ∧ EndsWith .ok s t ∧ t.trace = [] ∧ FrameExcept [.status] [] s t

/-- R149: SCRUB clears U0..U3 and SGN and takes the value of every point register away; all else is kept. -/
def Obligations.ScrubClearsWorkingStorage : Prop :=
  ∀ s : State, ∃ t, exec .scrub s = .next t ∧ EndsWith .ok s t ∧ (∀ e, t.sub e = 0) ∧
    t.sgn = ⟨false, false, false, false, false⟩ ∧ (∀ n, t.point n = none) ∧ t.pvalid = 0 ∧
    FrameExcept (subscalarRegs [0, 1, 2, 3] ++ [.sgn, .status, .pvalid]) (List.range 14) s t

/-- R160, R161: MASK takes int(K) modulo 2^251, below 2^251 and so below any q above it; only limb 3 of K changes. -/
def Obligations.MaskReducesBelow251Bits : Prop :=
  ∀ (s : State) (sel : ScalarSel), ∃ t, exec (.mask sel) s = .next t ∧ EndsWith .ok s t ∧
    intOf (t.scalar sel) = intOf (s.scalar sel) % 2 ^ 251 ∧
    (∀ q, 2 ^ 251 < q → intOf (t.scalar sel) < q) ∧
    FrameExcept [match sel with | .ka => .ka 3 | .kb => .kb 3, .status] [] s t

/-- R162: DECOMP puts the capability's result in the pair and signs of its scalar, in the order (asign, a, bsign, b). -/
def Obligations.DecompWritesItsPair : Prop :=
  (∀ s : State, ∃ t, exec (.decomp .ka) s = .next t ∧ EndsWith .ok s t ∧
    (t.sgn.sg0, t.u0, t.sgn.sg1, t.u1) = Config.params.decompose s.ka ∧
    t.sgn = { s.sgn with sg0 := t.sgn.sg0, sg1 := t.sgn.sg1 } ∧
    FrameExcept (subscalarRegs [0, 1] ++ [.sgn, .status]) [] s t) ∧
  ∀ s : State, ∃ t, exec (.decomp .kb) s = .next t ∧ EndsWith .ok s t ∧
    (t.sgn.sg2, t.u2, t.sgn.sg3, t.u3) = Config.params.decompose s.kb ∧
    t.sgn = { s.sgn with sg2 := t.sgn.sg2, sg3 := t.sgn.sg3 } ∧
    FrameExcept (subscalarRegs [2, 3] ++ [.sgn, .status]) [] s t

/-- R164: BASE writes PR[8+E] with the expanded source, or its image under φ, negated iff SG[E] = 1. -/
def Obligations.BaseWritesSignedPoint : Prop :=
  ∀ (s : State) (e : BitVec 2) (phi : Bool) (src : BitVec 2) (p : Aff),
    (src = 0 ∧ p = ⟨s.px, s.py⟩ ∨ src = 1 ∧ p = ⟨s.qx, s.qy⟩ ∨ src = 2 ∧ p = Config.params.generator) →
    ∃ t, exec (.base e phi src) s = .next t ∧ EndsWith .ok s t ∧
      t.point (8 + e.toNat) =
        (let x := Config.params.expand (if phi then Config.params.morph p else p)
         some (if (sgnWord s.sgn).getLsbD e.toNat then Config.params.neg x else x)) ∧
      FrameExcept [.status, .pvalid] [8 + e.toNat] s t

/-! ### Recoding -/

/-- R180: RECODE2 recodes U0 and U1 and sets LSB to the inverted low bit of U0; SG0..SG3, U2 and U3 are kept. -/
def Obligations.Recode2RewritesU0U1 : Prop :=
  ∀ s : State, ∃ t, exec .recode2 s = .next t ∧ EndsWith .ok s t ∧
    t.u0 = ((s.u0 - (if s.u0.getLsbD 0 then 0#128 else 1#128)) >>> 1) ||| (1#128 <<< 127) ∧
    t.u1 = (List.range 127).foldl (fun b p => b + ((b &&& (~~~t.u0 &&& (1#128 <<< p))) <<< 1)) s.u1 ∧
    t.sgn = { s.sgn with lsb := !s.u0.getLsbD 0 } ∧
    FrameExcept (subscalarRegs [0, 1] ++ [.sgn, .status]) [] s t

/-- R182: RECODE4 recodes U0 to U3, the three lanes under the same masks, and sets LSB. -/
def Obligations.Recode4RewritesU0ToU3 : Prop :=
  ∀ s : State, ∃ t, exec .recode4 s = .next t ∧ EndsWith .ok s t ∧
    t.u0 = ((s.u0 - (if s.u0.getLsbD 0 then 0#128 else 1#128)) >>> 1) ||| (1#128 <<< 126) ∧
    (let lane := fun v : U128 =>
       (List.range 126).foldl (fun b p => b + ((b &&& (~~~t.u0 &&& (1#128 <<< p))) <<< 1)) v
     t.u1 = lane s.u1 ∧ t.u2 = lane s.u2 ∧ t.u3 = lane s.u3) ∧
    t.sgn = { s.sgn with lsb := !s.u0.getLsbD 0 } ∧
    FrameExcept (subscalarRegs [0, 1, 2, 3] ++ [.sgn, .status]) [] s t

/-- R181: what RECODE2's output encodes, for every input. -/
def Obligations.Recode2DigitsEncodeInputs : Prop :=
  ∀ s : State, ∃ t, exec .recode2 s = .next t ∧
    signValue 128 t.u0 = 2 * (t.u0.toNat : Int) - (2 ^ 128 - 1) ∧
    signValue 128 t.u0 + t.sgn.lsb.toNat = ((s.u0 - 1#128).toNat : Int) + 1 ∧
    (digitValue 128 t.u0 t.u1 ≡ s.u1.toNat [ZMOD 2 ^ 128]) ∧
    (s.u1.toNat < 2 ^ 127 → digitValue 128 t.u0 t.u1 = s.u1.toNat) ∧
    t.u0.getLsbD 127 = true

/-- R183: what RECODE4's output encodes, for every input. -/
def Obligations.Recode4DigitsEncodeInputs : Prop :=
  ∀ s : State, ∃ t, exec .recode4 s = .next t ∧
    signValue 127 t.u0 = 2 * ((t.u0.toNat % 2 ^ 127 : Nat) : Int) - (2 ^ 127 - 1) ∧
    signValue 127 t.u0 + t.sgn.lsb.toNat = (((s.u0 - 1#128).toNat % 2 ^ 127 : Nat) : Int) + 1 ∧
    ∀ e : Fin 4, e ≠ 0 →
      (digitValue 127 t.u0 (t.sub e) ≡ (s.sub e).toNat [ZMOD 2 ^ 127]) ∧
      ((s.sub e).toNat < 2 ^ 126 → digitValue 127 t.u0 (t.sub e) = (s.sub e).toNat)

/-- R184: on subscalars below 2^126 with the sign scalar at least 1, both recodings are exact. -/
def Obligations.RecodingInvertible : Prop :=
  ∀ s : State, (∀ e, (s.sub e).toNat < 2 ^ 126) → 1 ≤ s.u0.toNat →
    (∃ t, exec .recode2 s = .next t ∧ signValue 128 t.u0 + t.sgn.lsb.toNat = s.u0.toNat ∧
      digitValue 128 t.u0 t.u1 = s.u1.toNat) ∧
    ∃ t, exec .recode4 s = .next t ∧ signValue 127 t.u0 + t.sgn.lsb.toNat = s.u0.toNat ∧
      ∀ e : Fin 4, e ≠ 0 → digitValue 127 t.u0 (t.sub e) = (s.sub e).toNat

/-! ### The table -/

/-- R200: GENT2 writes all eight entries, each the capability calls R200 lists. -/
def Obligations.Gent2BuildsTable : Prop :=
  ∀ (s : State) (A B : Config.Ext), s.point 8 = some A → s.point 9 = some B →
    ∃ t, exec .gent2 s = .next t ∧ EndsWith .ok s t ∧
      (let add := Config.params.add
       let dbl := Config.params.dbl
       let t0 := add (dbl A) A
       (List.range 8).map t.point =
         [some t0, some (add t0 B), some (add t0 (dbl B)), some (add (add t0 B) (dbl B)), some A,
          some (add A (Config.params.neg B)), some (add A (dbl B)), some (add A B)]) ∧
      FrameExcept [.status, .pvalid] (List.range 8) s t

/-- R202: GENT4 writes all eight entries, each the capability calls R202 lists. -/
def Obligations.Gent4BuildsTable : Prop :=
  ∀ (s : State) (A B C D : Config.Ext),
    s.point 8 = some A → s.point 9 = some B → s.point 10 = some C → s.point 11 = some D →
    ∃ t, exec .gent4 s = .next t ∧ EndsWith .ok s t ∧
      (let add := Config.params.add
       (List.range 8).map t.point =
         [some A, some (add A B), some (add A C), some (add (add A B) C), some (add A D), some (add (add A B) D),
          some (add (add A C) D), some (add (add (add A B) C) D)]) ∧
      FrameExcept [.status, .pvalid] (List.range 8) s t

/-- R201, R203, R205: the group values of both tables, where none of a table's adds is exceptional. (Here and
below, capability results are valid points where their rules give them values: log 14.) -/
def Obligations.TableValues : Prop :=
  ∀ (Ext E : Type) [AddCommGroup E] (c : Params Ext) (g : CurveGroup Ext E) (b : Block Ext) (xA xB : Ext),
    PropPt c g → PropAdd c g → b.point 8 = some xA → b.point 9 = some xB → g.valid xA → g.valid xB →
    (DualTableAddsOk c (g.val xA) (g.val xB) →
      ∀ k < 8, ∃ x, (execute c .gent2 b).point k = some x ∧ g.valid x ∧ g.val x = dualEntry (g.val xA) (g.val xB) k) ∧
    ∀ xC xD : Ext, b.point 10 = some xC → b.point 11 = some xD → g.valid xC → g.valid xD →
      QuadTableAddsOk c (g.val xA) (g.val xB) (g.val xC) (g.val xD) →
      ∀ k < 8, ∃ x, (execute c .gent4 b).point k = some x ∧ g.valid x ∧
        g.val x = quadEntry (g.val xA) (g.val xB) (g.val xC) (g.val xD) k

/-! ### Selecting and the ladder -/

/-- R220, R221: SEL2 writes entry k, negated iff U0[i+1] = 0, for every i (a bit 128 reads 0); k[2] = U0[i] XOR U0[i+1],
k[1] = U1[i+1], k[0] = U1[i]. -/
def Obligations.Sel2WritesSignedEntry : Prop :=
  ∀ (s : State) (i : BitVec 7) (d : PointDest) (T : Nat → Config.Ext), (∀ j < 8, s.point j = some (T j)) →
    ∃ t, exec (.sel2 i d) s = .next t ∧ EndsWith .ok s t ∧
      (let bit := fun (u : U128) (p : Nat) => (u.getLsbD p).toNat
       let x := T (4 * ((bit s.u0 i.toNat + bit s.u0 (i.toNat + 1)) % 2) + 2 * bit s.u1 (i.toNat + 1) + bit s.u1 i.toNat)
       t.point (destReg d) = some (if s.u0.getLsbD (i.toNat + 1) then x else Config.params.neg x)) ∧
      FrameExcept [.status, .pvalid] [destReg d] s t

/-- R222, R221: SEL4 writes entry k = U1[i] + 2·U2[i] + 4·U3[i], negated iff U0[i] = 0. -/
def Obligations.Sel4WritesSignedEntry : Prop :=
  ∀ (s : State) (i : BitVec 7) (d : PointDest) (T : Nat → Config.Ext), (∀ j < 8, s.point j = some (T j)) →
    ∃ t, exec (.sel4 i d) s = .next t ∧ EndsWith .ok s t ∧
      (let bit := fun (u : U128) => (u.getLsbD i.toNat).toNat
       let x := T (bit s.u1 + 2 * bit s.u2 + 4 * bit s.u3)
       t.point (destReg d) = some (if s.u0.getLsbD i.toNat then x else Config.params.neg x)) ∧
      FrameExcept [.status, .pvalid] [destReg d] s t

/-- R230, and R222's Meaning, at every i (R117): on a table with the values of R201, SEL2 at i selects the window value
of (i+1, i); on one with the values of R203, SEL4 at i selects the digit of i. At i = 127 SEL2's bits 128 read 0 (R11),
so s_128 = -1 and U1[128] = 0. (The selected points are valid, too: log 14.) -/
def Obligations.SelectsReturnWindowValues : Prop :=
  ∀ (Ext E : Type) [AddCommGroup E] (c : Params Ext) (g : CurveGroup Ext E) (b : Block Ext) (i : BitVec 7)
    (d : PointDest) (A B C D : E), PropPt c g →
    ((∀ k < 8, ∃ x, b.point k = some x ∧ g.valid x ∧ g.val x = dualEntry A B k) →
      ∃ y, (execute c (.sel2 i d) b).point (destReg d) = some y ∧ g.valid y ∧
        g.val y = dualWindow b.u0 b.u1 A B i.toNat) ∧
    ((∀ k < 8, ∃ x, b.point k = some x ∧ g.valid x ∧ g.val x = quadEntry A B C D k) →
      ∃ y, (execute c (.sel4 i d) b).point (destReg d) = some y ∧ g.valid y ∧
        g.val y = quadDigit b.u0 b.u1 b.u2 b.u3 A B C D i.toNat)

/-- R223, R224, R228: DBL, ADD and COFACTOR write PR12 with the capability calls of their rules. -/
def Obligations.DblAddCofactorWriteX : Prop :=
  ∀ (s : State) (x y : Config.Ext), s.point 12 = some x →
    (∃ t, exec .dbl s = .next t ∧ EndsWith .ok s t ∧ t.point 12 = some (Config.params.dbl x) ∧
      FrameExcept [.status] [12] s t) ∧
    (∃ t, exec .cofactor s = .next t ∧ EndsWith .ok s t ∧
      t.point 12 = some (Config.params.dbl (Config.params.dbl x)) ∧ FrameExcept [.status] [12] s t) ∧
    (s.point 13 = some y →
      ∃ t, exec .add s = .next t ∧ EndsWith .ok s t ∧ t.point 12 = some (Config.params.add x y) ∧
        FrameExcept [.status] [12] s t)

/-- R227: CORRECT adds the sign-corrected base E0 to X iff LSB = 1. -/
def Obligations.CorrectAddsE0OnLsb : Prop :=
  ∀ (s : State) (x e0 : Config.Ext), s.point 12 = some x → s.point 8 = some e0 →
    ∃ t, exec .correct s = .next t ∧ EndsWith .ok s t ∧
      t.point 12 = some (if s.sgn.lsb then Config.params.add x e0 else x) ∧ FrameExcept [.status] [12] s t

/-- R229: AFFINE of any of PR0..PR13 writes RX and RY and leaves the point register. -/
def Obligations.AffineWritesResult : Prop :=
  ∀ (s : State) (n : BitVec 4) (x : Config.Ext), n.toNat < 14 → s.point n.toNat = some x →
    ∃ t, exec (.affine n) s = .next t ∧ EndsWith .ok s t ∧ (⟨t.rx, t.ry⟩ : Aff) = Config.params.affine x ∧
      FrameExcept (resultRegs ++ [.status]) [] s t

/-- R150, R225, R226: each ladder completes on a full table and leaves what its commands, executed one by one, leave (but
for the trace, which each command starts anew). -/
def Obligations.LaddersAreTheirCommands : Prop :=
  ∀ s : State, (∀ j < 8, s.valid j = true) →
    (∃ t u, exec .ladder2 s = .next t ∧ runInstrs ladder2Commands s = .next u ∧ { t with trace := [] } = { u with trace := [] }) ∧
    ∃ t u, exec .ladder4 s = .next t ∧ runInstrs ladder4Commands s = .next u ∧ { t with trace := [] } = { u with trace := [] }

/-- R225, R226: a ladder writes X and Y and nothing else. -/
def Obligations.LaddersWriteOnlyXAndY : Prop :=
  ∀ (s : State) (i : Instr), i = .ladder2 ∨ i = .ladder4 → (∀ j < 8, s.valid j = true) →
    ∃ t, exec i s = .next t ∧ EndsWith .ok s t ∧ t.valid 12 = true ∧ t.valid 13 = true ∧
      FrameExcept [.status, .pvalid] [12, 13] s t

/-- R231: the value of X after each ladder, on a table of the right values and where none of its adds is
exceptional. (X is a valid point, too: log 14.) -/
def Obligations.LadderGroupValues : Prop :=
  ∀ (Ext E : Type) [AddCommGroup E] (c : Params Ext) (g : CurveGroup Ext E) (b : Block Ext) (A B C D : E),
    PropPt c g → PropAdd c g →
    ((∀ k < 8, ∃ x, b.point k = some x ∧ g.valid x ∧ g.val x = dualEntry A B k) → DualLadderAddsOk c b.u0 b.u1 A B →
      ∃ x, (execute c .ladder2 b).point 12 = some x ∧ g.valid x ∧
        g.val x = signValue 128 b.u0 • A + digitValue 128 b.u0 b.u1 • B) ∧
    ((∀ k < 8, ∃ x, b.point k = some x ∧ g.valid x ∧ g.val x = quadEntry A B C D k) →
      QuadLadderAddsOk c b.u0 b.u1 b.u2 b.u3 A B C D →
      ∃ x, (execute c .ladder4 b).point 12 = some x ∧ g.valid x ∧
        g.val x = signValue 127 b.u0 • A + digitValue 127 b.u0 b.u1 • B + digitValue 127 b.u0 b.u2 • C +
          digitValue 127 b.u0 b.u3 • D)

/-! ### The public operations -/

/-- R150, R260 to R262: MUL, MUL_GEN and SIMUL complete from every state and leave what their commands, executed one by
one, leave (but for the trace). -/
def Obligations.PublicOperationsAreTheirCommands : Prop :=
  ∀ s : State,
    (∃ t u, exec .mul s = .next t ∧ runInstrs (mulCommands 0) s = .next u ∧ { t with trace := [] } = { u with trace := [] }) ∧
    (∃ t u, exec .mulGen s = .next t ∧ runInstrs (mulCommands 2) s = .next u ∧ { t with trace := [] } = { u with trace := [] }) ∧
    ∃ t u, exec .simul s = .next t ∧ runInstrs simulCommands s = .next u ∧ { t with trace := [] } = { u with trace := [] }

/-- R268, R59: after MUL, MUL_GEN or SIMUL only RX, RY and STATUS have a result in them; U0..U3, SGN and PV are clear. -/
def Obligations.PublicOperationsLeaveOnlyTheResult : Prop :=
  ∀ (s : State) (i : Instr), i = .mul ∨ i = .mulGen ∨ i = .simul →
    ∃ t, exec i s = .next t ∧ EndsWith .ok s t ∧ (∀ e, t.sub e = 0) ∧ t.sgn = ⟨false, false, false, false, false⟩ ∧
      (∀ n, t.point n = none) ∧ t.pvalid = 0 ∧
      FrameExcept (subscalarRegs [0, 1, 2, 3] ++ resultRegs ++ [.sgn, .status, .pvalid]) (List.range 14) s t

/-- R263 (with R264's "no add in the run is exceptional", the correction's among them: log 18): the value of MUL's
result. -/
def Obligations.MulGroupValue : Prop :=
  ∀ (Ext E : Type) [AddCommGroup E] (c : Params Ext) (g : CurveGroup Ext E) (b : Block Ext),
    PropPt c g → PropAdd c g → PropMorph c g → g.onCurve ⟨b.px, b.py⟩ →
    let d := c.decompose b.ka
    let E0 := signed d.1 (g.valAff ⟨b.px, b.py⟩)
    let E1 := signed d.2.2.1 (g.valAff (c.morph ⟨b.px, b.py⟩))
    MulAddsOk c d.2.1 d.2.2.2 E0 E1 →
    let t := execute c .mul b
    let valB := digitValue 128 (recodeSign 127 d.2.1) (recode2Lane d.2.1 d.2.2.2)
    t.status.ecode = .ok ∧
    g.valAff ⟨t.rx, t.ry⟩ = 4 • (((d.2.1 - 1#128).toNat + 1) • E0 + valB • E1) ∧
    (valB ≡ d.2.2.2.toNat [ZMOD 2 ^ 128]) ∧ (d.2.2.2.toNat < 2 ^ 127 → valB = d.2.2.2.toNat)

/-- R264: "∀ valid k, P, mul(k, P) == 4·k·P", where no add of the run is exceptional. (The result is on the curve, too:
log 14.) -/
def Obligations.MulComputes4kP : Prop :=
  ∀ (Ext E : Type) [AddCommGroup E] (c : Params Ext) (g : CurveGroup Ext E) (b : Block Ext),
    PropGroup c E → PropPt c g → PropAdd c g → PropMorph c g → PropDecomp c → PropInput c g b.ka ⟨b.px, b.py⟩ →
    (let d := c.decompose b.ka
     MulAddsOk c d.2.1 d.2.2.2 (signed d.1 (g.valAff ⟨b.px, b.py⟩))
       (signed d.2.2.1 (g.valAff (c.morph ⟨b.px, b.py⟩)))) →
    let t := execute c .mul b
    t.status.ecode = .ok ∧ g.onCurve ⟨t.rx, t.ry⟩ ∧
    g.valAff ⟨t.rx, t.ry⟩ = (4 * intOf b.ka) • g.valAff ⟨b.px, b.py⟩

/-- R261, R267: MUL_GEN's result is MUL's with P = G. -/
def Obligations.MulGenIsMulOfGenerator : Prop :=
  ∀ (Ext : Type) (c : Params Ext) (b : Block Ext),
    let t := execute c .mulGen b
    let u := execute c .mul { b with px := c.generator.x, py := c.generator.y }
    t.rx = u.rx ∧ t.ry = u.ry ∧ t.status = u.status

/-- R265 (with R266's "no exceptional add", the correction's among them: log 18): the value of SIMUL's
result. -/
def Obligations.SimulGroupValue : Prop :=
  ∀ (Ext E : Type) [AddCommGroup E] (c : Params Ext) (g : CurveGroup Ext E) (b : Block Ext),
    PropPt c g → PropAdd c g → PropMorph c g → g.onCurve ⟨b.px, b.py⟩ → g.onCurve ⟨b.qx, b.qy⟩ →
    let d := c.decompose b.ka
    let d' := c.decompose b.kb
    let E0 := signed d.1 (g.valAff ⟨b.px, b.py⟩)
    let E1 := signed d.2.2.1 (g.valAff (c.morph ⟨b.px, b.py⟩))
    let E2 := signed d'.1 (g.valAff ⟨b.qx, b.qy⟩)
    let E3 := signed d'.2.2.1 (g.valAff (c.morph ⟨b.qx, b.qy⟩))
    SimulAddsOk c d.2.1 d.2.2.2 d'.2.1 d'.2.2.2 E0 E1 E2 E3 →
    let t := execute c .simul b
    let valOf := fun v : U128 => digitValue 127 (recodeSign 126 d.2.1) (recode4Lane d.2.1 v)
    t.status.ecode = .ok ∧
    g.valAff ⟨t.rx, t.ry⟩ =
      4 • (((d.2.1 - 1#128).toNat % 2 ^ 127 + 1) • E0 + valOf d.2.2.2 • E1 + valOf d'.2.1 • E2 + valOf d'.2.2.2 • E3) ∧
    ∀ v : U128, (valOf v ≡ v.toNat [ZMOD 2 ^ 127]) ∧ (v.toNat < 2 ^ 126 → valOf v = v.toNat)

/-- R266: "simul(a, P, b, Q) == 4·(a·P + b·Q)", where no add of the run is exceptional. (The result is on the curve, too:
log 14.) -/
def Obligations.SimulComputes4aPbQ : Prop :=
  ∀ (Ext E : Type) [AddCommGroup E] (c : Params Ext) (g : CurveGroup Ext E) (b : Block Ext),
    PropGroup c E → PropPt c g → PropAdd c g → PropMorph c g → PropDecomp c →
    PropInput c g b.ka ⟨b.px, b.py⟩ → PropInput c g b.kb ⟨b.qx, b.qy⟩ →
    (let d := c.decompose b.ka
     let d' := c.decompose b.kb
     SimulAddsOk c d.2.1 d.2.2.2 d'.2.1 d'.2.2.2
       (signed d.1 (g.valAff ⟨b.px, b.py⟩)) (signed d.2.2.1 (g.valAff (c.morph ⟨b.px, b.py⟩)))
       (signed d'.1 (g.valAff ⟨b.qx, b.qy⟩)) (signed d'.2.2.1 (g.valAff (c.morph ⟨b.qx, b.qy⟩)))) →
    let t := execute c .simul b
    t.status.ecode = .ok ∧ g.onCurve ⟨t.rx, t.ry⟩ ∧
    g.valAff ⟨t.rx, t.ry⟩ = 4 • (intOf b.ka • g.valAff ⟨b.px, b.py⟩ + intOf b.kb • g.valAff ⟨b.qx, b.qy⟩)

/-! ### The whole machine -/

/-- R63: what every register reads after reset; no point, no pending command, irq = 0. -/
def Obligations.ResetState : Prop :=
  (∀ r, readReg State.reset.toBlock r = 0) ∧ (∀ n, State.reset.point n = none) ∧ State.reset.pending = none ∧
  irq State.reset.toBlock = false

/-- The invariant that every step keeps holds after reset (R63). -/
def Obligations.ResetMeetsInvariant : Prop := MachineInv State.reset

/-- R310, R311: the reset input gives the reset block whatever the block is doing, and a pending command is gone. That
the rest of the schedule and the count of draws stay is the model's choice (log 11). -/
def Obligations.ResetInputFromAnyState : Prop :=
  ∀ (s : State) (rest : List Event), s.schedule = .reset :: rest →
    ∃ t, step s = .next t ∧ t.toBlock = State.reset.toBlock ∧ t.schedule = rest ∧ t.drawn = s.drawn

/-- R50, R57, R140 to R144: every step keeps the lifecycle's and the point registers' invariant. -/
def Obligations.EveryStepKeepsInvariant : Prop :=
  ∀ s t : State, MachineInv s → step s = .next t → MachineInv t

/-- R145: the trace a command leaves is the one its rule lists, a function of the command word and of PV alone; a command
that ends in error has the empty trace. (That the trace stays in the state until the next command is the model's, log
12, and that an ill-formed term ends in error as its word does, log 16.) -/
def Obligations.TraceIsFixedByWordAndPv : Prop :=
  ∀ (s : State) (i : Instr), ∃ t, exec i s = .next t ∧
    t.trace = if wellFormed i = true ∧ (reads i).all s.valid = true then traceOf i else []

/-- R145, R147, R232, R49: two runs that differ only in secrets (scalars, subscalars, signs, slots, points, the data the
host writes to operand registers) take the same steps, end commands with the same codes and leave equal traces (the
trace and the count of draws as the model keeps them: logs 12, 4). -/
def Obligations.SecretsDoNotReachPublicState : Prop :=
  ∀ s s' : State, SamePublic s s' → List.Forall₂ SameShape s.schedule s'.schedule →
    (∀ t, step s = .next t → ∃ t', step s' = .next t' ∧ SamePublic t t' ∧ List.Forall₂ SameShape t.schedule t'.schedule) ∧
    ∀ f, step s = .fault f → step s' = .fault f

/-- R42, R45, R46, R50, R56, R284: what no command, or only the commands named, ever write. -/
def Obligations.CommandsWriteOnlyTheirRegisters : Prop :=
  ∀ (s t : State) (i : Instr), exec i s = .next t →
    (t.px = s.px ∧ t.py = s.py ∧ t.qx = s.qx ∧ t.qy = s.qy ∧ t.cmd = s.cmd ∧ t.ie = s.ie ∧
      t.status.cerr = s.status.cerr ∧ t.status.werr = s.status.werr) ∧
    ((∀ sel, i ≠ .mask sel) → t.ka = s.ka ∧ t.kb = s.kb) ∧
    (i ≠ .mul → i ≠ .mulGen → i ≠ .simul → (∀ n, i ≠ .affine n) → t.rx = s.rx ∧ t.ry = s.ry) ∧
    (i ≠ .gent2 → i ≠ .gent4 → i ≠ .mul → i ≠ .mulGen → i ≠ .simul → i ≠ .scrub → ∀ j < 8, t.point j = s.point j)

/-- R55, R286, R287: irq is DONE AND IE; it rises only in the engine step that completes a command or by a CTRL write; a
completion with IE = 1 raises it, whatever the code. -/
def Obligations.IrqRisesByCompletionOrCtrlWrite : Prop :=
  (∀ s : State, irq s.toBlock = (s.status.done && s.ie)) ∧
  (∀ s t : State, step s = .next t → irq s.toBlock = false → irq t.toBlock = true →
    (s.pending ≠ none ∧ t.pending = none ∧ t.status.done = true) ∨
    ∃ off v rest, s.schedule = .write off 8 v :: rest ∧ regAt off = .ctrl ∧ v.getLsbD 0 = true) ∧
  ∀ (s t : State) (w : Word), s.pending = some w → engineStep s = .next t → irq t.toBlock = s.ie

/-! ### The register window -/

/-- R81: the register at each printed offset, and none at each reserved one. R82: word j of a 256-bit register is its bits
64j+63 to 64j, LO and HI of a subscalar its bits 63:0 and 127:64. R80: the window's decoder (log 13) reaches exactly
the 4096 byte addresses from BASE_ADDR on. -/
def Obligations.WindowMapIsAsPrinted : Prop :=
  (regAt 0x000 = .cmd ∧ regAt 0x008 = .status ∧ regAt 0x010 = .ctrl ∧ regAt 0x018 = .pvalid ∧ regAt 0x0C0 = .sgn) ∧
  (∀ j : Fin 4,
    regAt (BitVec.ofNat 12 (0x040 + 8 * j)) = .ka j ∧ regAt (BitVec.ofNat 12 (0x060 + 8 * j)) = .kb j ∧
    regAt (BitVec.ofNat 12 (0x080 + 16 * j)) = .uLo j ∧ regAt (BitVec.ofNat 12 (0x088 + 16 * j)) = .uHi j ∧
    regAt (BitVec.ofNat 12 (0x100 + 8 * j)) = .px j ∧ regAt (BitVec.ofNat 12 (0x120 + 8 * j)) = .py j ∧
    regAt (BitVec.ofNat 12 (0x140 + 8 * j)) = .qx j ∧ regAt (BitVec.ofNat 12 (0x160 + 8 * j)) = .qy j ∧
    regAt (BitVec.ofNat 12 (0x180 + 8 * j)) = .rx j ∧ regAt (BitVec.ofNat 12 (0x1A0 + 8 * j)) = .ry j) ∧
  (∀ off : BitVec 12, (0x020 ≤ off.toNat ∧ off.toNat ≤ 0x03F) ∨ (0x0C8 ≤ off.toNat ∧ off.toNat ≤ 0x0FF) ∨
    0x1C0 ≤ off.toNat → regAt off = .reserved) ∧
  (∀ (r : Reg) (off : BitVec 12), regOffset r = some off ↔ regAt off = r ∧ off.toNat % 8 = 0 ∧ r ≠ .reserved) ∧
  (∀ (Ext : Type) (b : Block Ext) (j : Fin 4),
    readReg b (.ka j) = b.ka.extractLsb' (64 * j) 64 ∧ readReg b (.kb j) = b.kb.extractLsb' (64 * j) 64 ∧
    readReg b (.px j) = b.px.extractLsb' (64 * j) 64 ∧ readReg b (.py j) = b.py.extractLsb' (64 * j) 64 ∧
    readReg b (.qx j) = b.qx.extractLsb' (64 * j) 64 ∧ readReg b (.qy j) = b.qy.extractLsb' (64 * j) 64 ∧
    readReg b (.rx j) = b.rx.extractLsb' (64 * j) 64 ∧ readReg b (.ry j) = b.ry.extractLsb' (64 * j) 64 ∧
    readReg b (.uLo j) = (#v[b.u0, b.u1, b.u2, b.u3][j]).extractLsb' 0 64 ∧
    readReg b (.uHi j) = (#v[b.u0, b.u1, b.u2, b.u3][j]).extractLsb' 64 64) ∧
  ∀ (Ext : Type) (c : Params Ext) (addr : Nat),
    (∀ off, windowOffset c addr = some off → addr = c.baseAddr + off.toNat) ∧
    (windowOffset c addr = none ↔ addr < c.baseAddr ∨ c.baseAddr + 4096 ≤ addr)

/-- R85, R285: the host's admitted accesses are the aligned 64-bit ones; any other is a fault of the host. (That the
fault ends the run, with no next state, is the model's: log 6.) -/
def Obligations.NonAdmittedAccessFaults : Prop :=
  ∀ (s : State) (off : BitVec 12) (bytes : Nat) (v : Word),
    (bytes ≠ 8 ∨ off.toNat % 8 ≠ 0 →
      hostRead off bytes s = .fault (.hostBusError off bytes) ∧
      hostWrite off bytes v s = .fault (.hostBusError off bytes)) ∧
    (bytes = 8 → off.toNat % 8 = 0 →
      (∃ t, hostRead off bytes s = .next t) ∧ ∃ t, hostWrite off bytes v s = .next t)

/-- R86, R88, R91: an admitted read changes nothing of the block; it returns the register's current value, except that a
data register read while BUSY = 1 gives a fresh draw, whatever its value. (The count of draws, log 4, and a reserved
offset's 0 while BUSY = 1, log 7, are the model's.) -/
def Obligations.ReadsReturnAndChangeNothing : Prop :=
  ∀ (s : State) (off : BitVec 12), off.toNat % 8 = 0 →
    ∃ t, hostRead off 8 s = .next t ∧ t.toBlock = s.toBlock ∧ t.schedule = s.schedule ∧
      (s.status.busy = false ∨ regAt off ∈ [Reg.cmd, .status, .ctrl, .pvalid, .reserved] →
        t.response = some (readReg s.toBlock (regAt off)) ∧ t.drawn = s.drawn) ∧
      (s.status.busy = true → regAt off ∉ [Reg.cmd, .status, .ctrl, .pvalid, .reserved] →
        t.drawn = s.drawn + 1 ∧ ∃ v, t.response = some v)

/-- R62, R87 to R89: an operand write while idle stores the word (of SGN, the five flags) and changes no other register,
no flag and no point. -/
def Obligations.IdleOperandWriteStores : Prop :=
  ∀ (s : State) (off : BitVec 12) (v : Word), off.toNat % 8 = 0 → isOperand (regAt off) = true → s.status.busy = false →
    ∃ t, hostWrite off 8 v s = .next t ∧
      readReg t.toBlock (regAt off) = (if regAt off = .sgn then v &&& 0x10F#64 else v) ∧
      (∀ r, r ≠ regAt off → readReg t.toBlock r = readReg s.toBlock r) ∧ (∀ n, t.point n = s.point n) ∧
      t.pending = s.pending ∧ t.trace = s.trace

/-- R90: an operand write while BUSY = 1 is dropped and sets WERR. -/
def Obligations.BusyOperandWriteDropped : Prop :=
  ∀ (s : State) (off : BitVec 12) (v : Word), off.toNat % 8 = 0 → isOperand (regAt off) = true → s.status.busy = true →
    ∃ t, hostWrite off 8 v s = .next t ∧ t.toBlock = { s.toBlock with status := { s.status with werr := true } }

/-- R86, R87: a write to PVALID, RX, RY or a reserved offset changes nothing, idle or busy; a reserved offset reads 0. -/
def Obligations.ReadOnlyAndReservedIgnoreWrites : Prop :=
  ∀ (s : State) (off : BitVec 12) (v : Word), off.toNat % 8 = 0 →
    (regAt off = .pvalid ∨ (∃ j, regAt off = .rx j) ∨ (∃ j, regAt off = .ry j) ∨ regAt off = .reserved) →
    ∃ t, hostWrite off 8 v s = .next t ∧ t.toBlock = s.toBlock ∧
      (regAt off = .reserved → readReg s.toBlock (regAt off) = 0)

/-- R52, R53, R87: STATUS is cleared bit by bit where DONE, CERR and WERR are written 1, its other bits ignore writes;
CTRL takes bit 0; both are accepted idle or busy, and reserved bits of STATUS, CTRL and SGN read 0. -/
def Obligations.StatusAndCtrlWrites : Prop :=
  ∀ (s : State) (v : Word),
    (∃ t, hostWrite 0x008 8 v s = .next t ∧
      statusWord t.status = statusWord s.status &&& ~~~(v &&& 0xE#64) ∧
      t.toBlock = { s.toBlock with status := t.status }) ∧
    (∃ t, hostWrite 0x010 8 v s = .next t ∧ ctrlWord t.ie = v &&& 1#64 ∧ t.toBlock = { s.toBlock with ie := t.ie }) ∧
    statusWord s.status &&& ~~~0xFF0F#64 = 0 ∧ ctrlWord s.ie &&& ~~~1#64 = 0 ∧ sgnWord s.sgn &&& ~~~0x10F#64 = 0

/-- R48, R54: bit n of PVALID is PV[n] for n below 16, 0 above; PV[14] = PV[15] = 0. -/
def Obligations.PvalidShowsPv : Prop :=
  ∀ (Ext : Type) (b : Block Ext) (n : Nat), b.pvalid.getLsbD n = (decide (n < 16) && b.valid n) ∧ b.valid 14 = false ∧ b.valid 15 = false
end

