-- ==== Sys2Proof/Laws/State.lean ====
section
/-! SUPPORT. What each update of the block leaves: one lemma per field per update, true by rfl, so that no later proof
unfolds a record update; and what the point registers read after each of them. -/

namespace Sys2Proof.Machine

variable {Ext : Type}

section Emit
variable (b : Block Ext) (ev : TraceEvent)

@[simp] theorem emit_ka : (b.emit ev).ka = b.ka := rfl
@[simp] theorem emit_kb : (b.emit ev).kb = b.kb := rfl
@[simp] theorem emit_u0 : (b.emit ev).u0 = b.u0 := rfl
@[simp] theorem emit_u1 : (b.emit ev).u1 = b.u1 := rfl
@[simp] theorem emit_u2 : (b.emit ev).u2 = b.u2 := rfl
@[simp] theorem emit_u3 : (b.emit ev).u3 = b.u3 := rfl
@[simp] theorem emit_sgn : (b.emit ev).sgn = b.sgn := rfl
@[simp] theorem emit_px : (b.emit ev).px = b.px := rfl
@[simp] theorem emit_py : (b.emit ev).py = b.py := rfl
@[simp] theorem emit_qx : (b.emit ev).qx = b.qx := rfl
@[simp] theorem emit_qy : (b.emit ev).qy = b.qy := rfl
@[simp] theorem emit_rx : (b.emit ev).rx = b.rx := rfl
@[simp] theorem emit_ry : (b.emit ev).ry = b.ry := rfl
@[simp] theorem emit_pr : (b.emit ev).pr = b.pr := rfl
@[simp] theorem emit_cmd : (b.emit ev).cmd = b.cmd := rfl
@[simp] theorem emit_status : (b.emit ev).status = b.status := rfl
@[simp] theorem emit_ie : (b.emit ev).ie = b.ie := rfl
@[simp] theorem emit_pending : (b.emit ev).pending = b.pending := rfl
@[simp] theorem emit_trace : (b.emit ev).trace = b.trace ++ [ev] := rfl
@[simp] theorem emit_point (n : Nat) : (b.emit ev).point n = b.point n := rfl
@[simp] theorem emit_valid (n : Nat) : (b.emit ev).valid n = b.valid n := rfl
@[simp] theorem emit_table : (b.emit ev).table = b.table := rfl
@[simp] theorem emit_scalar (s : ScalarSel) : (b.emit ev).scalar s = b.scalar s := rfl
@[simp] theorem emit_affineSource (c : Params Ext) (src : BitVec 2) :
    (b.emit ev).affineSource c src = b.affineSource c src := rfl
@[simp] theorem emit_sub (e : Fin 4) : (b.emit ev).sub e = b.sub e := rfl

end Emit

section ClearTrace
variable (b : Block Ext)

@[simp] theorem clearTrace_ka : b.clearTrace.ka = b.ka := rfl
@[simp] theorem clearTrace_kb : b.clearTrace.kb = b.kb := rfl
@[simp] theorem clearTrace_u0 : b.clearTrace.u0 = b.u0 := rfl
@[simp] theorem clearTrace_u1 : b.clearTrace.u1 = b.u1 := rfl
@[simp] theorem clearTrace_u2 : b.clearTrace.u2 = b.u2 := rfl
@[simp] theorem clearTrace_u3 : b.clearTrace.u3 = b.u3 := rfl
@[simp] theorem clearTrace_sgn : b.clearTrace.sgn = b.sgn := rfl
@[simp] theorem clearTrace_px : b.clearTrace.px = b.px := rfl
@[simp] theorem clearTrace_py : b.clearTrace.py = b.py := rfl
@[simp] theorem clearTrace_qx : b.clearTrace.qx = b.qx := rfl
@[simp] theorem clearTrace_qy : b.clearTrace.qy = b.qy := rfl
@[simp] theorem clearTrace_rx : b.clearTrace.rx = b.rx := rfl
@[simp] theorem clearTrace_ry : b.clearTrace.ry = b.ry := rfl
@[simp] theorem clearTrace_pr : b.clearTrace.pr = b.pr := rfl
@[simp] theorem clearTrace_cmd : b.clearTrace.cmd = b.cmd := rfl
@[simp] theorem clearTrace_status : b.clearTrace.status = b.status := rfl
@[simp] theorem clearTrace_ie : b.clearTrace.ie = b.ie := rfl
@[simp] theorem clearTrace_pending : b.clearTrace.pending = b.pending := rfl
@[simp] theorem clearTrace_trace : b.clearTrace.trace = [] := rfl
@[simp] theorem clearTrace_point (n : Nat) : b.clearTrace.point n = b.point n := rfl
@[simp] theorem clearTrace_valid (n : Nat) : b.clearTrace.valid n = b.valid n := rfl
@[simp] theorem clearTrace_table : b.clearTrace.table = b.table := rfl
@[simp] theorem clearTrace_scalar (s : ScalarSel) : b.clearTrace.scalar s = b.scalar s := rfl
@[simp] theorem clearTrace_affineSource (c : Params Ext) (src : BitVec 2) :
    b.clearTrace.affineSource c src = b.affineSource c src := rfl
@[simp] theorem clearTrace_sub (e : Fin 4) : b.clearTrace.sub e = b.sub e := rfl

end ClearTrace

/-- Several events at once: what a loop of commands' steps records. -/
def Block.emitAll (b : Block Ext) (evs : List TraceEvent) : Block Ext := { b with trace := b.trace ++ evs }

section EmitAll
variable (b : Block Ext) (evs : List TraceEvent)

@[simp] theorem emitAll_ka : (b.emitAll evs).ka = b.ka := rfl
@[simp] theorem emitAll_kb : (b.emitAll evs).kb = b.kb := rfl
@[simp] theorem emitAll_u0 : (b.emitAll evs).u0 = b.u0 := rfl
@[simp] theorem emitAll_u1 : (b.emitAll evs).u1 = b.u1 := rfl
@[simp] theorem emitAll_u2 : (b.emitAll evs).u2 = b.u2 := rfl
@[simp] theorem emitAll_u3 : (b.emitAll evs).u3 = b.u3 := rfl
@[simp] theorem emitAll_sgn : (b.emitAll evs).sgn = b.sgn := rfl
@[simp] theorem emitAll_px : (b.emitAll evs).px = b.px := rfl
@[simp] theorem emitAll_py : (b.emitAll evs).py = b.py := rfl
@[simp] theorem emitAll_qx : (b.emitAll evs).qx = b.qx := rfl
@[simp] theorem emitAll_qy : (b.emitAll evs).qy = b.qy := rfl
@[simp] theorem emitAll_rx : (b.emitAll evs).rx = b.rx := rfl
@[simp] theorem emitAll_ry : (b.emitAll evs).ry = b.ry := rfl
@[simp] theorem emitAll_pr : (b.emitAll evs).pr = b.pr := rfl
@[simp] theorem emitAll_cmd : (b.emitAll evs).cmd = b.cmd := rfl
@[simp] theorem emitAll_status : (b.emitAll evs).status = b.status := rfl
@[simp] theorem emitAll_ie : (b.emitAll evs).ie = b.ie := rfl
@[simp] theorem emitAll_pending : (b.emitAll evs).pending = b.pending := rfl
@[simp] theorem emitAll_trace : (b.emitAll evs).trace = b.trace ++ evs := rfl
@[simp] theorem emitAll_point (n : Nat) : (b.emitAll evs).point n = b.point n := rfl
@[simp] theorem emitAll_valid (n : Nat) : (b.emitAll evs).valid n = b.valid n := rfl
@[simp] theorem emitAll_table : (b.emitAll evs).table = b.table := rfl
@[simp] theorem emitAll_sub (e : Fin 4) : (b.emitAll evs).sub e = b.sub e := rfl

end EmitAll

section SetPoint
variable (b : Block Ext) (n : Nat) (x : Ext)

@[simp] theorem setPoint_ka : (b.setPoint n x).ka = b.ka := rfl
@[simp] theorem setPoint_kb : (b.setPoint n x).kb = b.kb := rfl
@[simp] theorem setPoint_u0 : (b.setPoint n x).u0 = b.u0 := rfl
@[simp] theorem setPoint_u1 : (b.setPoint n x).u1 = b.u1 := rfl
@[simp] theorem setPoint_u2 : (b.setPoint n x).u2 = b.u2 := rfl
@[simp] theorem setPoint_u3 : (b.setPoint n x).u3 = b.u3 := rfl
@[simp] theorem setPoint_sgn : (b.setPoint n x).sgn = b.sgn := rfl
@[simp] theorem setPoint_px : (b.setPoint n x).px = b.px := rfl
@[simp] theorem setPoint_py : (b.setPoint n x).py = b.py := rfl
@[simp] theorem setPoint_qx : (b.setPoint n x).qx = b.qx := rfl
@[simp] theorem setPoint_qy : (b.setPoint n x).qy = b.qy := rfl
@[simp] theorem setPoint_rx : (b.setPoint n x).rx = b.rx := rfl
@[simp] theorem setPoint_ry : (b.setPoint n x).ry = b.ry := rfl
@[simp] theorem setPoint_pr : (b.setPoint n x).pr = b.pr.setIfInBounds n (some x) := rfl
@[simp] theorem setPoint_cmd : (b.setPoint n x).cmd = b.cmd := rfl
@[simp] theorem setPoint_status : (b.setPoint n x).status = b.status := rfl
@[simp] theorem setPoint_ie : (b.setPoint n x).ie = b.ie := rfl
@[simp] theorem setPoint_pending : (b.setPoint n x).pending = b.pending := rfl
@[simp] theorem setPoint_trace : (b.setPoint n x).trace = b.trace := rfl
@[simp] theorem setPoint_scalar (s : ScalarSel) : (b.setPoint n x).scalar s = b.scalar s := rfl
@[simp] theorem setPoint_affineSource (c : Params Ext) (src : BitVec 2) :
    (b.setPoint n x).affineSource c src = b.affineSource c src := rfl

/-- What a point register reads after a write of one of them; the reserved registers discard it (R47, R48). -/
theorem point_setPoint (m : Nat) :
    (b.setPoint n x).point m = if m = n ∧ n < 14 then some x else b.point m := by
  unfold Block.point Block.setPoint
  by_cases hm : m < 14
  · simp only [hm, dite_true, Vector.getElem_setIfInBounds]
    by_cases hn : m = n
    · subst hn; simp [hm]
    · simp [hn, Ne.symm hn]
  · simp only [hm, dite_false]
    have : ¬(m = n ∧ n < 14) := fun ⟨h, h'⟩ => hm (h ▸ h')
    simp [this]

@[simp] theorem point_setPoint_same (h : n < 14) : (b.setPoint n x).point n = some x := by simp [point_setPoint, h]

theorem point_setPoint_ne {m : Nat} (h : m ≠ n) : (b.setPoint n x).point m = b.point m := by simp [point_setPoint, h]

theorem valid_setPoint (m : Nat) : (b.setPoint n x).valid m = (decide (m = n ∧ n < 14) || b.valid m) := by
  unfold Block.valid
  rw [point_setPoint]
  by_cases h : m = n ∧ n < 14 <;> simp [h]

@[simp] theorem putPoint_eq (ev : TraceEvent) : b.putPoint n x ev = (b.setPoint n x).emit ev := rfl
@[simp] theorem setPoint_sub (e : Fin 4) : (b.setPoint n x).sub e = b.sub e := rfl

end SetPoint

/-- PR14, PR15 and every number above hold no value (R47, R48). -/
@[simp] theorem point_reserved (b : Block Ext) {n : Nat} (h : 14 ≤ n) : b.point n = none := by
  simp [Block.point, Nat.not_lt.mpr h]

@[simp] theorem valid_reserved (b : Block Ext) {n : Nat} (h : 14 ≤ n) : b.valid n = false := by simp [Block.valid, h]

theorem valid_iff (b : Block Ext) (n : Nat) : b.valid n = true ↔ ∃ x, b.point n = some x := by
  simp [Block.valid, Option.isSome_iff_exists]

section DropPoints
variable (b : Block Ext)

@[simp] theorem dropPoints_ka : b.dropPoints.ka = b.ka := rfl
@[simp] theorem dropPoints_kb : b.dropPoints.kb = b.kb := rfl
@[simp] theorem dropPoints_u0 : b.dropPoints.u0 = b.u0 := rfl
@[simp] theorem dropPoints_u1 : b.dropPoints.u1 = b.u1 := rfl
@[simp] theorem dropPoints_u2 : b.dropPoints.u2 = b.u2 := rfl
@[simp] theorem dropPoints_u3 : b.dropPoints.u3 = b.u3 := rfl
@[simp] theorem dropPoints_sgn : b.dropPoints.sgn = b.sgn := rfl
@[simp] theorem dropPoints_px : b.dropPoints.px = b.px := rfl
@[simp] theorem dropPoints_py : b.dropPoints.py = b.py := rfl
@[simp] theorem dropPoints_qx : b.dropPoints.qx = b.qx := rfl
@[simp] theorem dropPoints_qy : b.dropPoints.qy = b.qy := rfl
@[simp] theorem dropPoints_rx : b.dropPoints.rx = b.rx := rfl
@[simp] theorem dropPoints_ry : b.dropPoints.ry = b.ry := rfl
@[simp] theorem dropPoints_pr : b.dropPoints.pr = Vector.replicate 14 none := rfl
@[simp] theorem dropPoints_cmd : b.dropPoints.cmd = b.cmd := rfl
@[simp] theorem dropPoints_status : b.dropPoints.status = b.status := rfl
@[simp] theorem dropPoints_ie : b.dropPoints.ie = b.ie := rfl
@[simp] theorem dropPoints_pending : b.dropPoints.pending = b.pending := rfl
@[simp] theorem dropPoints_trace : b.dropPoints.trace = b.trace := rfl
@[simp] theorem dropPoints_point (n : Nat) : b.dropPoints.point n = none := by
  by_cases h : n < 14 <;> simp [Block.point, h]
@[simp] theorem dropPoints_valid (n : Nat) : b.dropPoints.valid n = false := by simp [Block.valid]
@[simp] theorem dropPoints_sub (e : Fin 4) : b.dropPoints.sub e = b.sub e := rfl

end DropPoints

section Finish
variable (code : ECode) (b : Block Ext)

@[simp] theorem finish_ka : (finish code b).ka = b.ka := rfl
@[simp] theorem finish_kb : (finish code b).kb = b.kb := rfl
@[simp] theorem finish_u0 : (finish code b).u0 = b.u0 := rfl
@[simp] theorem finish_u1 : (finish code b).u1 = b.u1 := rfl
@[simp] theorem finish_u2 : (finish code b).u2 = b.u2 := rfl
@[simp] theorem finish_u3 : (finish code b).u3 = b.u3 := rfl
@[simp] theorem finish_sgn : (finish code b).sgn = b.sgn := rfl
@[simp] theorem finish_px : (finish code b).px = b.px := rfl
@[simp] theorem finish_py : (finish code b).py = b.py := rfl
@[simp] theorem finish_qx : (finish code b).qx = b.qx := rfl
@[simp] theorem finish_qy : (finish code b).qy = b.qy := rfl
@[simp] theorem finish_rx : (finish code b).rx = b.rx := rfl
@[simp] theorem finish_ry : (finish code b).ry = b.ry := rfl
@[simp] theorem finish_pr : (finish code b).pr = b.pr := rfl
@[simp] theorem finish_cmd : (finish code b).cmd = b.cmd := rfl
@[simp] theorem finish_status :
    (finish code b).status = { b.status with busy := false, done := true, ecode := code } := rfl
@[simp] theorem finish_ie : (finish code b).ie = b.ie := rfl
@[simp] theorem finish_pending : (finish code b).pending = none := rfl
@[simp] theorem finish_trace : (finish code b).trace = b.trace := rfl
@[simp] theorem finish_point (n : Nat) : (finish code b).point n = b.point n := rfl
@[simp] theorem finish_valid (n : Nat) : (finish code b).valid n = b.valid n := rfl
@[simp] theorem finish_sub (e : Fin 4) : (finish code b).sub e = b.sub e := rfl

end Finish

section Fail
variable (code : ECode) (b : Block Ext)

@[simp] theorem fail_ka : (fail code b).ka = b.ka := rfl
@[simp] theorem fail_kb : (fail code b).kb = b.kb := rfl
@[simp] theorem fail_u0 : (fail code b).u0 = b.u0 := rfl
@[simp] theorem fail_u1 : (fail code b).u1 = b.u1 := rfl
@[simp] theorem fail_u2 : (fail code b).u2 = b.u2 := rfl
@[simp] theorem fail_u3 : (fail code b).u3 = b.u3 := rfl
@[simp] theorem fail_sgn : (fail code b).sgn = b.sgn := rfl
@[simp] theorem fail_px : (fail code b).px = b.px := rfl
@[simp] theorem fail_py : (fail code b).py = b.py := rfl
@[simp] theorem fail_qx : (fail code b).qx = b.qx := rfl
@[simp] theorem fail_qy : (fail code b).qy = b.qy := rfl
@[simp] theorem fail_rx : (fail code b).rx = b.rx := rfl
@[simp] theorem fail_ry : (fail code b).ry = b.ry := rfl
@[simp] theorem fail_pr : (fail code b).pr = b.pr := rfl
@[simp] theorem fail_cmd : (fail code b).cmd = b.cmd := rfl
@[simp] theorem fail_status :
    (fail code b).status = { b.status with busy := false, done := true, ecode := code } := rfl
@[simp] theorem fail_ie : (fail code b).ie = b.ie := rfl
@[simp] theorem fail_pending : (fail code b).pending = none := rfl
@[simp] theorem fail_trace : (fail code b).trace = [] := rfl
@[simp] theorem fail_point (n : Nat) : (fail code b).point n = b.point n := rfl
@[simp] theorem fail_valid (n : Nat) : (fail code b).valid n = b.valid n := rfl
@[simp] theorem fail_sub (e : Fin 4) : (fail code b).sub e = b.sub e := rfl

end Fail

section Accept
variable (w : Word) (b : Block Ext)

@[simp] theorem accept_ka : (accept w b).ka = b.ka := rfl
@[simp] theorem accept_kb : (accept w b).kb = b.kb := rfl
@[simp] theorem accept_u0 : (accept w b).u0 = b.u0 := rfl
@[simp] theorem accept_u1 : (accept w b).u1 = b.u1 := rfl
@[simp] theorem accept_u2 : (accept w b).u2 = b.u2 := rfl
@[simp] theorem accept_u3 : (accept w b).u3 = b.u3 := rfl
@[simp] theorem accept_sgn : (accept w b).sgn = b.sgn := rfl
@[simp] theorem accept_px : (accept w b).px = b.px := rfl
@[simp] theorem accept_py : (accept w b).py = b.py := rfl
@[simp] theorem accept_qx : (accept w b).qx = b.qx := rfl
@[simp] theorem accept_qy : (accept w b).qy = b.qy := rfl
@[simp] theorem accept_rx : (accept w b).rx = b.rx := rfl
@[simp] theorem accept_ry : (accept w b).ry = b.ry := rfl
@[simp] theorem accept_pr : (accept w b).pr = b.pr := rfl
@[simp] theorem accept_cmd : (accept w b).cmd = w := rfl
@[simp] theorem accept_status :
    (accept w b).status = { b.status with busy := true, done := false, ecode := .ok } := rfl
@[simp] theorem accept_ie : (accept w b).ie = b.ie := rfl
@[simp] theorem accept_pending : (accept w b).pending = some w := rfl
@[simp] theorem accept_trace : (accept w b).trace = b.trace := rfl
@[simp] theorem accept_point (n : Nat) : (accept w b).point n = b.point n := rfl
@[simp] theorem accept_valid (n : Nat) : (accept w b).valid n = b.valid n := rfl
@[simp] theorem accept_sub (e : Fin 4) : (accept w b).sub e = b.sub e := rfl

end Accept

section Command
variable (s : State) (i : Instr) (perform : Block Config.Ext → Option (Block Config.Ext))

@[simp] theorem command_toBlock : (s.command i perform).toBlock = executeInstr i perform s.toBlock := rfl
@[simp] theorem command_schedule : (s.command i perform).schedule = s.schedule := rfl
@[simp] theorem command_response : (s.command i perform).response = s.response := rfl
@[simp] theorem command_drawn : (s.command i perform).drawn = s.drawn := rfl

end Command

end Sys2Proof.Machine
end

