-- ==== Sys2Proof/Laws/Operands.lean ====
section
/-! SUPPORT. The words of a multi-word register: a word read back is the word written, the others are kept, and the
words together are the value (R10, R82, R89). -/

namespace Sys2Proof.Machine

theorem getLsbD_limb {n : Nat} (v : BitVec n) (j i : Nat) :
    (limb v j).getLsbD i = (decide (i < 64) && v.getLsbD (64 * j + i)) := by
  simp [limb]

theorem getLsbD_setLimb {n : Nat} (v : BitVec n) (j i : Nat) (w : Word) (hi : i < n) :
    (setLimb v j w).getLsbD i = if 64 * j ≤ i ∧ i < 64 * j + 64 then w.getLsbD (i - 64 * j) else v.getLsbD i := by
  unfold setLimb
  simp only [BitVec.getLsbD_or, BitVec.getLsbD_and, BitVec.getLsbD_not, BitVec.getLsbD_shiftLeft,
    BitVec.getLsbD_setWidth, BitVec.getLsbD_allOnes, hi, decide_true, Bool.true_and]
  have h1 : i - 64 * j < n := by omega
  by_cases h : i < 64 * j
  · have : ¬(64 * j ≤ i ∧ i < 64 * j + 64) := by omega
    simp [h, this]
  · by_cases h2 : i - 64 * j < 64
    · have : 64 * j ≤ i ∧ i < 64 * j + 64 := by omega
      simp [h, h1, h2, this]
    · have : ¬(64 * j ≤ i ∧ i < 64 * j + 64) := by omega
      have h3 : w.getLsbD (i - 64 * j) = false := BitVec.getLsbD_of_ge _ _ (by omega)
      simp [h, h2, this, h3]

/-- A word reads back as written (R88, R89). -/
theorem limb_setLimb_same {n : Nat} (v : BitVec n) (j : Nat) (w : Word) (h : 64 * j + 64 ≤ n) :
    limb (setLimb v j w) j = w := by
  apply BitVec.eq_of_getLsbD_eq
  intro i hi
  rw [getLsbD_limb, getLsbD_setLimb _ _ _ _ (by omega)]
  have h1 : 64 * j ≤ 64 * j + i ∧ 64 * j + i < 64 * j + 64 := by omega
  have h2 : 64 * j + i - 64 * j = i := by omega
  simp [h1, h2, hi]

/-- The other words are kept. -/
theorem limb_setLimb_ne {n : Nat} (v : BitVec n) {j k : Nat} (w : Word) (h : 64 * k + 64 ≤ n) (hjk : k ≠ j) :
    limb (setLimb v j w) k = limb v k := by
  apply BitVec.eq_of_getLsbD_eq
  intro i hi
  rw [getLsbD_limb, getLsbD_limb, getLsbD_setLimb _ _ _ _ (by omega)]
  have h1 : ¬(64 * j ≤ 64 * k + i ∧ 64 * k + i < 64 * j + 64) := by omega
  simp [h1]

/-- Two 256-bit values with the same four words are the same. -/
theorem eq_of_limbs {v w : U256} (h : ∀ j : Fin 4, limb v j = limb w j) : v = w := by
  apply BitVec.eq_of_getLsbD_eq
  intro i hi
  have hj := congrArg (fun x => x.getLsbD (i % 64)) (h ⟨i / 64, by omega⟩)
  simp only [getLsbD_limb] at hj
  have h1 : 64 * (i / 64) + i % 64 = i := by omega
  have h2 : i % 64 < 64 := by omega
  simpa [h1, h2] using hj

/-- Two 128-bit values with the same two words are the same. -/
theorem eq_of_limbs128 {v w : U128} (h0 : limb v 0 = limb w 0) (h1 : limb v 1 = limb w 1) : v = w := by
  apply BitVec.eq_of_getLsbD_eq
  intro i hi
  by_cases h : i < 64
  · have hj := congrArg (fun x => x.getLsbD i) h0
    simp only [getLsbD_limb, h, decide_true, Bool.true_and, Nat.mul_zero, Nat.zero_add] at hj
    exact hj
  · have hj := congrArg (fun x => x.getLsbD (i - 64)) h1
    simp only [getLsbD_limb] at hj
    have h2 : 64 * 1 + (i - 64) = i := by omega
    have h3 : i - 64 < 64 := by omega
    simp only [h2, h3, decide_true, Bool.true_and] at hj
    exact hj

theorem limb_toNat {n : Nat} (v : BitVec n) (j : Nat) : (limb v j).toNat = v.toNat / 2 ^ (64 * j) % 2 ^ 64 := by
  simp [limb, BitVec.extractLsb'_toNat, Nat.shiftRight_eq_div_pow]

/-- int(K) is the register read as one number (R10). -/
theorem intOf_eq_toNat (k : U256) : intOf k = k.toNat := by
  unfold intOf
  simp only [limb_toNat]
  have h : k.toNat < 2 ^ 256 := k.isLt
  omega

end Sys2Proof.Machine
end

