-- ==== Sys2Proof/Laws/Ops.lean ====
section
/-! SUPPORT. All that running a command can do, said once (R143). -/

namespace Sys2Proof.Machine

variable {Ext : Type}

/-- A command is turned away with E_FIELD, or with E_UNINIT, or runs its rule and ends with E_OK (R143). -/
theorem executeInstr_cases (i : Instr) (p : Block Ext → Option (Block Ext)) (b : Block Ext) :
    (wellFormed i = false ∧ executeInstr i p b = fail .field b) ∨
    (wellFormed i = true ∧ executeInstr i p b = fail .uninit b) ∨
    (wellFormed i = true ∧ (reads i).all b.valid = true ∧
      ∃ b', p b.clearTrace = some b' ∧ executeInstr i p b = finish .ok b') := by
  unfold executeInstr runCommand
  cases hw : wellFormed i
  · simp
  · cases hr : (reads i).all b.valid
    · simp
    · cases hp : p b.clearTrace <;> simp

/-- A well-formed command whose reads hold values runs its rule (R143). -/
theorem executeInstr_ok {i : Instr} {p : Block Ext → Option (Block Ext)} {b b' : Block Ext} (hw : wellFormed i = true)
    (hr : (reads i).all b.valid = true) (hp : p b.clearTrace = some b') :
    executeInstr i p b = finish .ok b' := by
  simp [executeInstr, runCommand, hw, hr, hp]

/-- A command that reads a point register without a value ends with E_UNINIT (R143, R144). -/
theorem executeInstr_uninit {i : Instr} {p : Block Ext → Option (Block Ext)} {b : Block Ext} (hw : wellFormed i = true)
    (hr : (reads i).all b.valid = false) : executeInstr i p b = fail .uninit b := by
  simp [executeInstr, runCommand, hw, hr]

/-- A reserved field value ends with E_FIELD (R116). -/
theorem executeInstr_field {i : Instr} {p : Block Ext → Option (Block Ext)} {b : Block Ext} (hw : wellFormed i = false) :
    executeInstr i p b = fail .field b := by
  simp [executeInstr, hw]

end Sys2Proof.Machine
end

