-- ==== Sys2Proof/Laws/Ladder.lean ====
section
/-! SUPPORT. The select's index and sign bit by bit (R220, R222), and the table scan: it reads the entry its index names,
and its events do not depend on the index (R221). -/

namespace Sys2Proof.Machine

variable {Ext : Type}

/-- One bit of a shifted value. -/
theorem shift_and_one (v : U128) (i : Nat) : (v >>> i) &&& 1#128 = if v.getLsbD i then 1#128 else 0#128 := by
  apply BitVec.eq_of_getLsbD_eq
  intro k hk
  have h1 : (1#128).getLsbD k = decide (k = 0) := by
    rw [BitVec.getLsbD_one]; simp
  rw [BitVec.getLsbD_and, BitVec.getLsbD_ushiftRight, h1]
  by_cases hk0 : k = 0
  · subst hk0; cases v.getLsbD i <;> simp
  · cases v.getLsbD i <;> simp [hk0, BitVec.getLsbD_one]

theorem shift_and_three (v : U128) (i : Nat) :
    (v >>> i) &&& 3#128 = (if v.getLsbD (i + 1) then 2#128 else 0#128) ||| (if v.getLsbD i then 1#128 else 0#128) := by
  have h3 : 3#128 = 1#128 ||| (1#128 <<< 1) := by decide
  have h : (v >>> i) &&& 3#128 = (((v >>> (i + 1)) &&& 1#128) <<< 1) ||| ((v >>> i) &&& 1#128) := by
    apply BitVec.eq_of_getLsbD_eq
    intro k hk
    rw [h3]
    have h1 : ∀ k, (1#128).getLsbD k = decide (k = 0) := by
      intro k; rw [BitVec.getLsbD_one]; simp
    simp only [BitVec.getLsbD_and, BitVec.getLsbD_or, BitVec.getLsbD_ushiftRight, BitVec.getLsbD_shiftLeft, h1, hk,
      decide_true, Bool.true_and]
    by_cases hk0 : k = 0
    · subst hk0; simp
    · by_cases hk1 : k = 1
      · subst hk1; simp
      · have : k - 1 ≠ 0 := by omega
        simp [hk0, this]
  rw [h, shift_and_one, shift_and_one]
  cases v.getLsbD (i + 1) <;> cases v.getLsbD i <;> decide

/-- R220: k[2] = U0[i] XOR U0[i+1], k[1] = U1[i+1], k[0] = U1[i]. -/
theorem selectIndex2_eq (u0 u1 : U128) (i : Nat) :
    selectIndex2 u0 u1 i =
      4 * (u0.getLsbD i ^^ u0.getLsbD (i + 1)).toNat + 2 * (u1.getLsbD (i + 1)).toNat + (u1.getLsbD i).toNat := by
  unfold selectIndex2
  have hx : (u0 >>> i ^^^ u0 >>> i >>> 1) &&& 1#128 = ((u0 >>> i) &&& 1#128) ^^^ ((u0 >>> (i + 1)) &&& 1#128) := by
    apply BitVec.eq_of_getLsbD_eq
    intro k hk
    simp only [BitVec.getLsbD_and, BitVec.getLsbD_xor, BitVec.getLsbD_ushiftRight]
    rw [show i + (1 + k) = i + 1 + k by omega]
    cases u0.getLsbD (i + k) <;> cases u0.getLsbD (i + 1 + k) <;> cases (1#128).getLsbD k <;> rfl
  simp only [hx, shift_and_one, shift_and_three]
  cases u0.getLsbD i <;> cases u0.getLsbD (i + 1) <;> cases u1.getLsbD i <;> cases u1.getLsbD (i + 1) <;> decide

/-- R220: neg = NOT U0[i+1]. -/
theorem selectNeg2_eq (u0 : U128) (i : Nat) : selectNeg2 u0 i = !u0.getLsbD (i + 1) := by
  unfold selectNeg2
  have hx : u0 >>> i >>> 1 = u0 >>> (i + 1) := by
    apply BitVec.eq_of_getLsbD_eq
    intro k hk
    simp only [BitVec.getLsbD_ushiftRight]
    rw [show i + (1 + k) = i + 1 + k by omega]
  simp only [hx, shift_and_one]
  cases u0.getLsbD (i + 1) <;> decide

/-- R222: k = U1[i] + 2·U2[i] + 4·U3[i]. -/
theorem selectIndex4_eq (u1 u2 u3 : U128) (i : Nat) :
    selectIndex4 u1 u2 u3 i =
      (u1.getLsbD i).toNat + 2 * (u2.getLsbD i).toNat + 4 * (u3.getLsbD i).toNat := by
  unfold selectIndex4
  simp only [shift_and_one]
  cases u1.getLsbD i <;> cases u2.getLsbD i <;> cases u3.getLsbD i <;> decide

/-- R222: neg = NOT U0[i]. -/
theorem selectNeg4_eq (u0 : U128) (i : Nat) : selectNeg4 u0 i = !u0.getLsbD i := by
  unfold selectNeg4
  simp only [shift_and_one]
  cases u0.getLsbD i <;> decide

theorem selectIndex2_lt (u0 u1 : U128) (i : Nat) : selectIndex2 u0 u1 i < 8 := by
  rw [selectIndex2_eq]
  cases u0.getLsbD i <;> cases u0.getLsbD (i + 1) <;> cases u1.getLsbD i <;> cases u1.getLsbD (i + 1) <;> decide

theorem selectIndex4_lt (u1 u2 u3 : U128) (i : Nat) : selectIndex4 u1 u2 u3 i < 8 := by
  rw [selectIndex4_eq]
  cases u1.getLsbD i <;> cases u2.getLsbD i <;> cases u3.getLsbD i <;> decide

/-- The eight table registers hold values, in order. -/
theorem table_of_points (b : Block Ext) (T : Nat → Ext) (h : ∀ j < 8, b.point j = some (T j)) :
    b.table = some ((List.range 8).map T) := by
  have h0 := h 0 (by omega)
  have h1 := h 1 (by omega)
  have h2 := h 2 (by omega)
  have h3 := h 3 (by omega)
  have h4 := h 4 (by omega)
  have h5 := h 5 (by omega)
  have h6 := h 6 (by omega)
  have h7 := h 7 (by omega)
  simp [Block.table, List.range, List.range.loop, h0, h1, h2, h3, h4, h5, h6, h7]


/-- ORing one masked entry in: the entry itself under the all-ones mask, nothing under the all-zeros mask. -/
theorem setMask_genMask (x : Ext) (r : Option Ext) (j k : Nat) :
    setMask x (genMask j k) r = if j = k then some x else r := by
  unfold setMask genMask
  by_cases h : j = k <;> simp [h]

/-- The scan's events do not depend on the index (R146, R221). -/
theorem scanFrom_block (k j : Nat) (t : List Ext) (r : Option Ext) (b : Block Ext) :
    (scanFrom k j t r b).2 =
      b.emitAll ((List.range' j t.length).flatMap (fun n => [.genMask n, .setMask n])) := by
  induction t generalizing j r b with
  | nil => simp [scanFrom, Block.emitAll]
  | cons x t ih => simp [scanFrom, ih, Block.emit, Block.emitAll, List.range'_succ]

/-- The scan over entries that do not come to position k again leaves what it has. -/
theorem scanFrom_fst_of_lt (k j : Nat) (t : List Ext) (r : Option Ext) (b : Block Ext) (h : k < j) :
    (scanFrom k j t r b).1 = r := by
  induction t generalizing j r b with
  | nil => rfl
  | cons x t ih =>
    have : j ≠ k := by omega
    simp [scanFrom, setMask_genMask, this, ih _ _ _ (Nat.lt_succ_of_lt h)]

/-- "Exactly one j equals k, so r = PR[k] bit for bit" (R221). -/
theorem scanFrom_fst (k j : Nat) (t : List Ext) (b : Block Ext) (x : Ext) (hk : j ≤ k) (hx : t[k - j]? = some x) :
    (scanFrom k j t none b).1 = some x := by
  induction t generalizing j b with
  | nil => simp at hx
  | cons y t ih =>
    by_cases h : j = k
    · subst h
      have : y = x := by simpa using hx
      subst this
      simp [scanFrom, setMask_genMask, scanFrom_fst_of_lt]
    · have h1 : k - j = (k - (j + 1)) + 1 := by omega
      rw [h1, List.getElem?_cons_succ] at hx
      simp only [scanFrom, setMask_genMask, h, if_false]
      exact ih (j + 1) _ (by omega) hx

/-- The events of one full scan (R221). -/
def scanTrace : List TraceEvent := (List.range 8).flatMap (fun n => [.genMask n, .setMask n])

/-- R221 whole: the scan reads entry k, and its events do not depend on k. -/
theorem scan_eq (b : Block Ext) (T : Nat → Ext) (k : Nat) (hk : k < 8) :
    scan k ((List.range 8).map T) b = (some (T k), b.emitAll scanTrace) := by
  unfold scan
  refine Prod.ext ?_ ?_
  · exact scanFrom_fst k 0 _ b (T k) (Nat.zero_le _) (by simp [hk])
  · rw [scanFrom_block]; rfl

/-- R220 on a full table. -/
theorem performSel2_eq (c : Params Ext) (i : Nat) (d : PointDest) (b : Block Ext) (T : Nat → Ext)
    (h : ∀ j < 8, b.point j = some (T j)) :
    performSel2 c i d b =
      some (((b.emitAll scanTrace).setPoint (destReg d)
        (condNeg c (selectNeg2 b.u0 i) (T (selectIndex2 b.u0 b.u1 i)))).emit (.condNeg (destReg d))) := by
  simp [performSel2, table_of_points b T h, scan_eq b T _ (selectIndex2_lt b.u0 b.u1 i)]

/-- R222 on a full table. -/
theorem performSel4_eq (c : Params Ext) (i : Nat) (d : PointDest) (b : Block Ext) (T : Nat → Ext)
    (h : ∀ j < 8, b.point j = some (T j)) :
    performSel4 c i d b =
      some (((b.emitAll scanTrace).setPoint (destReg d)
        (condNeg c (selectNeg4 b.u0 i) (T (selectIndex4 b.u1 b.u2 b.u3 i)))).emit (.condNeg (destReg d))) := by
  simp [performSel4, table_of_points b T h, scan_eq b T _ (selectIndex4_lt b.u1 b.u2 b.u3 i)]

end Sys2Proof.Machine
end

