-- ==== Sys2Proof/Laws/Recoding.lean ====
section
/-! SUPPORT. The recoders in one equation each (R180, R182): their loops touch the lanes and the trace only. -/

namespace Sys2Proof.Machine

variable {Ext : Type}

/-- RECODE2's loop touches U1 and the trace only. -/
theorem recode2_loop (an : U128) (l : List Nat) (b : Block Ext) :
    l.foldl (recode2Step an) b =
      { b with u1 := l.foldl (fun x p => recodeBit an p x) b.u1, trace := b.trace ++ l.map .recodeStep } := by
  induction l generalizing b with
  | nil => simp
  | cons p l ih => simp [ih, recode2Step, Block.emit]

/-- RECODE4's loop touches U1, U2, U3 and the trace only, its lanes independent. -/
theorem recode4_loop (an : U128) (l : List Nat) (b : Block Ext) :
    l.foldl (recode4Step an) b =
      { b with u1 := l.foldl (fun x p => recodeBit an p x) b.u1, u2 := l.foldl (fun x p => recodeBit an p x) b.u2,
               u3 := l.foldl (fun x p => recodeBit an p x) b.u3, trace := b.trace ++ l.map .recodeStep } := by
  induction l generalizing b with
  | nil => simp
  | cons p l ih => simp [ih, recode4Step, Block.emit]

/-- R180 in one equation. -/
theorem performRecode2_eq (b : Block Ext) :
    performRecode2 b = some { b with
      u0 := recodeSign 127 b.u0, u1 := recode2Lane b.u0 b.u1, sgn := { b.sgn with lsb := recodeLsb b.u0 },
      trace := b.trace ++ recodeTrace 2 127 } := by
  simp [performRecode2, recode2_loop, recode2Lane, recodeLane, recodeTrace, Block.emit]

/-- R182 in one equation. -/
theorem performRecode4_eq (b : Block Ext) :
    performRecode4 b = some { b with
      u0 := recodeSign 126 b.u0, u1 := recode4Lane b.u0 b.u1, u2 := recode4Lane b.u0 b.u2,
      u3 := recode4Lane b.u0 b.u3, sgn := { b.sgn with lsb := recodeLsb b.u0 },
      trace := b.trace ++ recodeTrace 4 126 } := by
  simp [performRecode4, recode4_loop, recode4Lane, recodeLane, recodeTrace, Block.emit]

end Sys2Proof.Machine
end

