-- ==== Sys2Proof/Laws/Execute.lean ====
section
/-! SUPPORT. `exec` is the spec's `execute` at the machine's own configuration, so what holds of `execute` for every
configuration holds of `exec`. -/

namespace Sys2Proof.Machine

theorem exec_eq_execute (i : Instr) (s : State) :
    exec i s = .next { s with toBlock := execute Config.params i s.toBlock } := by
  cases i <;> rfl

/-- A command whose rule succeeds: the next state, whole. -/
theorem exec_ok {i : Instr} {s : State} {b' : Block Config.Ext} (hw : wellFormed i = true)
    (hr : (reads i).all s.valid = true) (hp : perform Config.params i s.toBlock.clearTrace = some b') :
    exec i s = .next { s with toBlock := finish .ok b' } := by
  rw [exec_eq_execute, execute, executeInstr_ok hw hr hp]

end Sys2Proof.Machine
end

