-- ==== Sys2Proof/Laws/PerInstr.lean ====
section
/-! SUPPORT. Statements about every command as syntax, one lemma per constructor. -/

namespace Sys2Proof.Laws.EncodingMatchesRow

/-- The word of a command matches a row of the opcode map: "a command matches a row when (word AND mask) = match"
(R114). So no reserved bit and no unused field of it is set (R112, R113). -/
def Statement (i : Instr) : Prop := ∃ r ∈ opTable, encode i &&& r.mask = r.pattern

theorem nop : Statement .nop := ⟨_, List.mem_of_getElem? (i := 0) rfl, by decide⟩
theorem mask (s : ScalarSel) : Statement (.mask s) :=
  ⟨_, List.mem_of_getElem? (i := 1) rfl, by cases s <;> decide⟩
theorem mul : Statement .mul := ⟨_, List.mem_of_getElem? (i := 2) rfl, by decide⟩
theorem mulGen : Statement .mulGen := ⟨_, List.mem_of_getElem? (i := 3) rfl, by decide⟩
theorem simul : Statement .simul := ⟨_, List.mem_of_getElem? (i := 4) rfl, by decide⟩
theorem scrub : Statement .scrub := ⟨_, List.mem_of_getElem? (i := 5) rfl, by decide⟩
theorem decomp (s : ScalarSel) : Statement (.decomp s) :=
  ⟨_, List.mem_of_getElem? (i := 6) rfl, by cases s <;> decide⟩
theorem base (e : BitVec 2) (phi : Bool) (src : BitVec 2) : Statement (.base e phi src) :=
  ⟨_, List.mem_of_getElem? (i := 7) rfl, by revert e phi src; decide⟩
theorem gent2 : Statement .gent2 := ⟨_, List.mem_of_getElem? (i := 8) rfl, by decide⟩
theorem gent4 : Statement .gent4 := ⟨_, List.mem_of_getElem? (i := 9) rfl, by decide⟩
theorem recode2 : Statement .recode2 := ⟨_, List.mem_of_getElem? (i := 10) rfl, by decide⟩
theorem recode4 : Statement .recode4 := ⟨_, List.mem_of_getElem? (i := 11) rfl, by decide⟩
theorem sel2 (idx : BitVec 7) (d : PointDest) : Statement (.sel2 idx d) :=
  ⟨_, List.mem_of_getElem? (i := 12) rfl, by cases d <;> revert idx <;> decide⟩
theorem sel4 (idx : BitVec 7) (d : PointDest) : Statement (.sel4 idx d) :=
  ⟨_, List.mem_of_getElem? (i := 13) rfl, by cases d <;> revert idx <;> decide⟩
theorem ladder2 : Statement .ladder2 := ⟨_, List.mem_of_getElem? (i := 14) rfl, by decide⟩
theorem ladder4 : Statement .ladder4 := ⟨_, List.mem_of_getElem? (i := 15) rfl, by decide⟩
theorem dbl : Statement .dbl := ⟨_, List.mem_of_getElem? (i := 16) rfl, by decide⟩
theorem add : Statement .add := ⟨_, List.mem_of_getElem? (i := 17) rfl, by decide⟩
theorem correct : Statement .correct := ⟨_, List.mem_of_getElem? (i := 18) rfl, by decide⟩
theorem cofactor : Statement .cofactor := ⟨_, List.mem_of_getElem? (i := 19) rfl, by decide⟩
theorem affine (psrc : BitVec 4) : Statement (.affine psrc) :=
  ⟨_, List.mem_of_getElem? (i := 20) rfl, by revert psrc; decide⟩

end Sys2Proof.Laws.EncodingMatchesRow
end

