-- ==== Sys2Proof/Tests/Slice0.lean ====
section
/-! SUPPORT. The model's own tests. Expected results come from the spec: the opcode map (30_encoding.md R114), its
examples (R125), and the vectors of 95_test_vectors.md, which are given at the free test configuration FTC of its
section 2. -/

namespace Sys2Proof.Tests

open Sys2Proof.Machine

/-! ### Well-formedness: the reserved field values of R116 are refused, their neighbours are not -/

theorem test_base_source_3_refused : wellFormed (.base 0 false 3) = false := by decide
theorem test_base_source_2_accepted : wellFormed (.base 3 true 2) = true := by decide
theorem test_affine_14_refused : wellFormed (.affine 14) = false := by decide
theorem test_affine_15_refused : wellFormed (.affine 15) = false := by decide
theorem test_affine_13_accepted : wellFormed (.affine 13) = true := by decide

/-! ### Decoding: words written out from R111 and R114 (most are printed in R125 or 95_test_vectors.md 3.1) -/

theorem test_decode_nop : decode 0x0000000000000000 = .cmd .nop := by decide
theorem test_decode_mask : decode 0x0000000000200001 = .cmd (.mask .kb) := by decide
theorem test_decode_mul : decode 0x0000000000000002 = .cmd .mul := by decide
theorem test_decode_mul_gen : decode 0x0000000000000003 = .cmd .mulGen := by decide
theorem test_decode_simul : decode 0x0000000000000004 = .cmd .simul := by decide
theorem test_decode_scrub : decode 0x0000000000000008 = .cmd .scrub := by decide
theorem test_decode_decomp : decode 0x0000000000200010 = .cmd (.decomp .kb) := by decide
theorem test_decode_base_e3_q_phi : decode 0x0000000003C00011 = .cmd (.base 3 true 1) := by decide
theorem test_decode_base_e0_g : decode 0x0000000004000011 = .cmd (.base 0 false 2) := by decide
theorem test_decode_gent2 : decode 0x0000000000000012 = .cmd .gent2 := by decide
theorem test_decode_gent4 : decode 0x0000000000000013 = .cmd .gent4 := by decide
theorem test_decode_recode2 : decode 0x0000000000000014 = .cmd .recode2 := by decide
theorem test_decode_recode4 : decode 0x0000000000000015 = .cmd .recode4 := by decide
theorem test_decode_sel2 : decode 0x0000000000107C16 = .cmd (.sel2 124 .y) := by decide
theorem test_decode_sel2_127 : decode 0x0000000000007F16 = .cmd (.sel2 127 .x) := by decide
theorem test_decode_sel4 : decode 0x0000000000107D17 = .cmd (.sel4 125 .y) := by decide
theorem test_decode_ladder2 : decode 0x0000000000000018 = .cmd .ladder2 := by decide
theorem test_decode_ladder4 : decode 0x0000000000000019 = .cmd .ladder4 := by decide
theorem test_decode_dbl : decode 0x000000000000001A = .cmd .dbl := by decide
theorem test_decode_add : decode 0x000000000000001B = .cmd .add := by decide
theorem test_decode_correct : decode 0x000000000000001C = .cmd .correct := by decide
theorem test_decode_cofactor : decode 0x000000000000001D = .cmd .cofactor := by decide
theorem test_decode_affine : decode 0x00000000000C001E = .cmd (.affine 12) := by decide

/-- The refused words of 95_test_vectors.md 3.1, each with its cause. -/
theorem test_decode_rejects :
    decode 0x1F = .illegal .unassignedOpcode ∧ decode 0x05 = .illegal .unassignedOpcode ∧
    decode 0xFF = .illegal .unassignedOpcode ∧ decode 0x8016 = .illegal .reservedBits ∧
    decode 0x200016 = .illegal .unusedField ∧ decode 0x100001 = .illegal .unusedField ∧
    decode 0x100 = .illegal .unusedField ∧ decode 0x8000012 = .illegal .reservedBits ∧
    decode 0x8000000000000000 = .illegal .reservedBits ∧ decode 0x6000011 = .fieldErr .affineSource ∧
    decode 0xE001E = .fieldErr .pointRegister ∧ decode 0xF001E = .fieldErr .pointRegister ∧
    decode 0x6008011 = .illegal .reservedBits ∧ decode 0x00000100000F001E = .illegal .reservedBits := by decide

theorem test_encode_examples :
    encode (.base 1 true 2) = 0x5400011 ∧ encode (.sel4 125 .y) = 0x107D17 ∧ encode (.affine 12) = 0xC001E ∧
    encode (.mask .kb) = 0x200001 := by decide

theorem test_decodeTableWord : decodeTableWord 64 0x107C16 = some (.sel2 124 .y) ∧ decodeTableWord 64 0x1F = none := by
  decide

/-- The written forms of R123, in capitals or not. -/
theorem test_assembler :
    parseInstr "BASE E1, G, PHI" = some (.base 1 true 2) ∧ parseInstr "sel2 124, y" = some (.sel2 124 .y) ∧
    parseInstr "AFFINE T7" = some (.affine 7) ∧ parseInstr "SEL2 128, X" = none ∧ parseInstr "NOP X" = none := by
  decide

/-! ### The free test configuration FTC (95_test_vectors.md section 2), at its own Ext: vectors of four integers -/

abbrev Z4 := Int × Int × Int × Int

/-- The vector v0·e0 + v1·e1 + v2·e2 + v3·e3. -/
def vec (v0 v1 v2 v3 : Int) : Z4 := (v0, v1, v2, v3)

/-- dec: a 128-bit field of a slot read as a two's-complement integer. -/
def decLow (v : U256) : Int := (v.extractLsb' 0 128).toInt
def decHigh (v : U256) : Int := (v.extractLsb' 128 128).toInt

def enc : Z4 → Aff
  | (v0, v1, v2, v3) =>
    ⟨BitVec.ofInt 256 (v0 % 2 ^ 128 + v1 % 2 ^ 128 * 2 ^ 128), BitVec.ofInt 256 (v2 % 2 ^ 128 + v3 % 2 ^ 128 * 2 ^ 128)⟩

def ftc : Params Z4 where
  decompose k := (false, k.extractLsb' 0 128, false, k.extractLsb' 128 128)
  morph p := enc (vec 0 (decLow p.x) 0 (decLow p.y))
  expand p := vec (decLow p.x) (decHigh p.x) (decLow p.y) (decHigh p.y)
  affine := enc
  neg | (x0, x1, x2, x3) => vec (-x0) (-x1) (-x2) (-x3)
  add | (x0, x1, x2, x3), (y0, y1, y2, y3) => vec (x0 + y0) (x1 + y1) (x2 + y2) (x3 + y3)
  dbl | (x0, x1, x2, x3) => vec (2 * x0) (2 * x1) (2 * x2) (2 * x3)
  generator := enc (vec 1 0 0 0)
  q := 5
  eigenvalue := 1
  feBits := 256
  addComplete := true
  latency _ := 1
  latencyError := 1
  baseAddr := 0

/-- The block after reset, with P = P_t, and with either table of 3.6 put in place. -/
def start : Block Z4 := Block.reset
def pt : Block Z4 := { start with px := 1 }

def withTable (entries : List Z4) : Block Z4 :=
  { start with pr := Vector.ofFn fun n : Fin 14 => entries[n.val]? }

def dualTable : Block Z4 :=
  withTable [vec 3 0 0 0, vec 3 1 0 0, vec 3 2 0 0, vec 3 3 0 0, vec 1 0 0 0, vec 1 (-1) 0 0, vec 1 2 0 0, vec 1 1 0 0]

def quadTable : Block Z4 :=
  withTable [vec 1 0 0 0, vec 1 1 0 0, vec 1 0 1 0, vec 1 1 1 0, vec 1 0 0 1, vec 1 1 0 1, vec 1 0 1 1, vec 1 1 1 1]

def table8 (b : Block Z4) : List (Option Z4) := (List.range 8).map b.point

/-! ### One command at a time -/

/-- 3.2, row 8: only limb 3 changes. -/
theorem test_mask_kb :
    (execute ftc (.mask .kb) { start with kb := 0x1234567890ABCDEF000000000000000700000000000000060000000000000005 }).kb =
      0x0234567890ABCDEF000000000000000700000000000000060000000000000005 := by decide

/-- 3.2, row 3: 2^251 becomes 0. -/
theorem test_mask_ka_2_251 : (execute ftc (.mask .ka) { start with ka := 1#256 <<< 251 }).ka = 0 := by decide

/-- 3.3, row 2: the second pair. -/
theorem test_decomp_kb :
    let t := execute ftc (.decomp .kb) { start with kb := 0x300000000000000000000000000000002, u0 := 9, u1 := 8 }
    t.u2 = 2 ∧ t.u3 = 3 ∧ t.u0 = 9 ∧ t.u1 = 8 := by decide

/-- 3.3, row 6: SG1 = 1 negates the image under morph. -/
theorem test_base_phi_negated :
    (execute ftc (.base 1 true 0) { pt with sgn := { pt.sgn with sg1 := true } }).point 9 = some (vec 0 (-1) 0 0) := by
  decide

/-- 3.3, row 10. -/
theorem test_base_generator : (execute ftc (.base 0 false 2) start).point 8 = some (vec 1 0 0 0) := by decide

/-- 3.6, row 2. -/
theorem test_gent2 :
    table8 (execute ftc .gent2 ((start.setPoint 8 (vec (-1) 0 0 0)).setPoint 9 (vec 0 1 0 0))) =
      [some (vec (-3) 0 0 0), some (vec (-3) 1 0 0), some (vec (-3) 2 0 0), some (vec (-3) 3 0 0), some (vec (-1) 0 0 0),
       some (vec (-1) (-1) 0 0), some (vec (-1) 2 0 0), some (vec (-1) 1 0 0)] := by decide

/-- 3.6, row 7: PV[9] = 0 ends with E_UNINIT and no entry is written. -/
theorem test_gent2_uninit :
    let t := execute ftc .gent2 (start.setPoint 8 (vec 1 0 0 0))
    t.status.ecode = .uninit ∧ t.pvalid = 0x100 := by decide

/-- 3.6, row 5. -/
theorem test_gent4 :
    table8 (execute ftc .gent4 ((((start.setPoint 8 (vec (-1) 0 0 0)).setPoint 9 (vec 0 1 0 0)).setPoint 10
      (vec 0 0 (-1) 0)).setPoint 11 (vec 0 0 0 1))) =
      [some (vec (-1) 0 0 0), some (vec (-1) 1 0 0), some (vec (-1) 0 (-1) 0), some (vec (-1) 1 (-1) 0),
       some (vec (-1) 0 0 1), some (vec (-1) 1 0 1), some (vec (-1) 0 (-1) 1), some (vec (-1) 1 (-1) 1)] := by decide

/-- 3.4, row 6. -/
theorem test_recode2 :
    let t := execute ftc .recode2 { start with u0 := 6, u1 := 3 }
    t.u0 = 0x80000000000000000000000000000002 ∧ t.u1 = 0xFFFFFFFFFFFFFFFFFFFFFFFFFFFFFFFD ∧ t.sgn.lsb = true := by
  decide +kernel

/-- 3.4, row 8: U0 = 0. -/
theorem test_recode2_zero :
    let t := execute ftc .recode2 start
    t.u0 = 0xFFFFFFFFFFFFFFFFFFFFFFFFFFFFFFFF ∧ t.u1 = 0 ∧ t.sgn.lsb = true := by decide +kernel

/-- 3.5, row 3. -/
theorem test_recode4 :
    let t := execute ftc .recode4 { start with u0 := 2, u1 := 1, u2 := 2, u3 := 3 }
    t.u0 = 0x40000000000000000000000000000000 ∧ t.u1 = 0x7FFFFFFFFFFFFFFFFFFFFFFFFFFFFFFF ∧
    t.u2 = 0x7FFFFFFFFFFFFFFFFFFFFFFFFFFFFFFE ∧ t.u3 = 0x7FFFFFFFFFFFFFFFFFFFFFFFFFFFFFFD ∧ t.sgn.lsb = true := by
  decide +kernel

/-- 3.5, last row: a0 is taken modulo 2^127. -/
theorem test_recode4_high :
    let t := execute ftc .recode4 { start with u0 := 0x80000000000000000000000000000000 }
    t.u0 = 0x7FFFFFFFFFFFFFFFFFFFFFFFFFFFFFFF ∧ t.sgn.lsb = true := by decide +kernel

/-- 3.7, row 11: k = 6, negated. -/
theorem test_sel2 :
    (execute ftc (.sel2 10 .y) { dualTable with u0 := 0x400, u1 := 0x800 }).point 13 =
      some (vec (-1) (-2) 0 0) := by decide

/-- 3.7, `SEL2 127, X` on bits (1, 1): bit 128 reads 0. -/
theorem test_sel2_127 :
    (execute ftc (.sel2 127 .x) { dualTable with u0 := 1#128 <<< 127, u1 := 1#128 <<< 127 }).point 12 =
      some (vec (-1) 1 0 0) := by decide

/-- 3.7, `SEL4 3, X`: k = 5. -/
theorem test_sel4 :
    (execute ftc (.sel4 3 .x) { quadTable with u0 := 8, u1 := 8, u3 := 8 }).point 12 =
      some (vec 1 1 0 1) := by decide

/-- 3.8: DBL, ADD, COFACTOR. -/
theorem test_dbl : (execute ftc .dbl (start.setPoint 12 (vec 1 1 0 0))).point 12 = some (vec 2 2 0 0) := by decide
theorem test_add :
    (execute ftc .add ((start.setPoint 12 (vec 4 0 0 0)).setPoint 13 (vec (-3) 0 0 0))).point 12 =
      some (vec 1 0 0 0) := by decide
theorem test_cofactor :
    (execute ftc .cofactor (start.setPoint 12 (vec 1 (-1) 0 0))).point 12 = some (vec 4 (-4) 0 0) := by decide

/-- 3.8: the sign-corrected E0 is added on LSB = 1; nothing is, but the event is recorded, on LSB = 0. -/
theorem test_correct_adds :
    (execute ftc .correct { (start.setPoint 12 (vec (-5) 0 0 0)).setPoint 8 (vec (-1) 0 0 0) with
      sgn := { start.sgn with lsb := true } }).point 12 = some (vec (-6) 0 0 0) := by decide
theorem test_correct_keeps :
    let t := execute ftc .correct ((start.setPoint 12 (vec 1 1 0 0)).setPoint 8 (vec 1 0 0 0))
    t.point 12 = some (vec 1 1 0 0) ∧ t.trace = [.condAdd (.pr 12) (.pr 12) (.pr 8)] := by decide

/-- 3.8: AFFINE X of -24e0. -/
theorem test_affine :
    let t := execute ftc (.affine 12) (start.setPoint 12 (vec (-24) 0 0 0))
    t.rx = 0xFFFFFFFFFFFFFFFFFFFFFFFFFFFFFFE8 ∧ t.ry = 0 := by decide

/-- R149: SCRUB. -/
theorem test_scrub :
    let t := execute ftc .scrub { dualTable with u0 := 5, sgn := ⟨true, true, true, true, true⟩, ka := 7 }
    t.u0 = 0 ∧ t.sgn = ⟨false, false, false, false, false⟩ ∧ t.pvalid = 0 ∧ t.ka = 7 ∧ t.trace = [.clear] := by decide

/-- R148: with IE = 1, NOP ends with STATUS = 2 and irq = 1. -/
theorem test_nop :
    let t := execute ftc .nop (accept 0 { start with ie := true })
    statusWord t.status = 2 ∧ irq t = true ∧ t.trace = [] := by decide

/-- 3.9: LADDER2 on recoded (6, 3); X is 5e0 + 3e1, Y the last selected entry. -/
theorem test_ladder2 :
    let t := execute ftc .ladder2 { dualTable with
      u0 := 0x80000000000000000000000000000002, u1 := 0xFFFFFFFFFFFFFFFFFFFFFFFFFFFFFFFD }
    t.point 12 = some (vec 5 3 0 0) ∧ t.point 13 = some (vec 1 (-1) 0 0) := by decide +kernel

/-- 3.9, row 3 of LADDER4, on the recoded subscalars of 3.5, row 3. -/
theorem test_ladder4 :
    let t := execute ftc .ladder4 { quadTable with
      u0 := 0x40000000000000000000000000000000, u1 := 0x7FFFFFFFFFFFFFFFFFFFFFFFFFFFFFFF,
      u2 := 0x7FFFFFFFFFFFFFFFFFFFFFFFFFFFFFFE, u3 := 0x7FFFFFFFFFFFFFFFFFFFFFFFFFFFFFFD }
    t.point 12 = some (vec 1 1 2 3) ∧ t.point 13 = some (vec (-1) (-1) 0 (-1)) := by decide +kernel

/-- 3.10, row 2 of MUL. -/
theorem test_mul :
    let t := execute ftc .mul { pt with ka := 0x300000000000000000000000000000006 }
    t.rx = 0xC00000000000000000000000000000018 ∧ t.ry = 0 ∧ t.u0 = 0 ∧ t.pvalid = 0 ∧ statusWord t.status = 2 := by
  decide +kernel

/-- 3.10: a = 0 is not detected, and b = 2^128 - 1 counts as -1. -/
theorem test_mul_corner :
    (execute ftc .mul { pt with ka := 0x100000000000000000000000000000000 }).rx =
      0x400000000000000000000000000000000 ∧
    (execute ftc .mul { pt with ka := 0xFFFFFFFFFFFFFFFFFFFFFFFFFFFFFFFF00000000000000000000000000000001 }).rx =
      0xFFFFFFFFFFFFFFFFFFFFFFFFFFFFFFFC00000000000000000000000000000004 := by decide +kernel

/-- 3.10: MUL_GEN on 4·2^128 + 6 from reset. -/
theorem test_mul_gen :
    (execute ftc .mulGen { start with ka := 0x400000000000000000000000000000006 }).rx =
      0x1000000000000000000000000000000018 := by decide +kernel

/-- 3.10: SIMUL with KA = 1 and KB = 3·2^128 + 2. -/
theorem test_simul :
    let t := execute ftc .simul { pt with qy := 1, ka := 1, kb := 0x300000000000000000000000000000002 }
    t.rx = 4 ∧ t.ry = 0xC00000000000000000000000000000008 := by decide +kernel

/-- 3.10: with Q = P. -/
theorem test_simul_equal_points :
    let t := execute ftc .simul { pt with qx := 1, ka := 0x100000000000000000000000000000002,
                                          kb := 0x300000000000000000000000000000004 }
    t.rx = 0x1000000000000000000000000000000018 ∧ t.ry = 0 := by decide +kernel

/-- The number of events each rule gives its trace (R180, R182, R200, R202, R220, R222, R225, R226, R260 to R262). -/
theorem test_trace_lengths :
    [traceOf .gent2, traceOf .gent4, traceOf .recode2, traceOf .recode4, traceOf (.sel2 10 .y), traceOf (.sel4 3 .x),
      traceOf .ladder2, traceOf .ladder4, traceOf .mul, traceOf .mulGen, traceOf .simul].map List.length =
    [11, 8, 128, 127, 17, 17, 1277, 2411, 1427, 1427, 2563] := by decide +kernel

/-! ### The busy protocol and the window (95_test_vectors.md 3.11) -/

/-- The state an outcome goes on with. -/
def after : Host.Outcome State Fault Refusal → Option State
  | .next t => some t
  | .fault _ => none
  | .refused _ => none

/-- An idle block with a word accepted (R140). -/
def busy (w : Word) : State := { State.reset with toBlock := accept w Block.reset }

theorem test_cmd_write_idle :
    (after (hostWrite 0x000 8 2 State.reset)).map (fun t => (statusWord t.status, t.cmd)) = some (1, 2) := by decide
theorem test_cmd_write_busy :
    (after (hostWrite 0x000 8 0 (busy 2))).map (fun t => (statusWord t.status, t.cmd, t.pending)) =
      some (5, 2, some 2) := by decide
theorem test_operand_write_busy :
    (after (hostWrite 0x040 8 5 (busy 2))).map (fun t => (statusWord t.status, t.ka)) = some (9, 0) := by decide
theorem test_status_write_clears_done :
    (after (hostWrite 0x008 8 2 { State.reset with status := ⟨false, true, false, false, .field⟩ })).map
      (fun t => statusWord t.status) = some 0x300 := by decide
theorem test_sgn_write :
    (after (hostWrite 0x0C0 8 0xFFFFFFFFFFFFFFFF State.reset)).map (fun t => readReg t.toBlock .sgn) = some 0x10F := by
  decide
theorem test_pvalid_and_rx_ignore_writes :
    after (hostWrite 0x018 8 0xFFFF State.reset) = some State.reset ∧
    after (hostWrite 0x180 8 5 State.reset) = some State.reset := by decide
theorem test_reserved_reads_zero :
    (after (hostRead 0x0C8 8 State.reset)).map (fun t => t.response) = some (some 0) := by decide
theorem test_narrow_access_faults :
    hostRead 0x004 4 State.reset = .fault (.hostBusError 0x004 4) := rfl
theorem test_kb2_offset :
    (after (hostWrite 0x070 8 9 State.reset)).map (fun t => t.kb) = some (9#256 <<< 128) := by decide
theorem test_u2_hi_offset :
    (after (hostWrite 0x0A8 8 1 State.reset)).map (fun t => t.u2) = some (1#128 <<< 64) := by decide

/-- R83: byte 1 of a register is bits 15:8. -/
theorem test_window_byte : windowByte { start with px := 0xAB00 } 0x101 = 0xAB := by decide

/-- R80: the window is 4096 bytes from BASE_ADDR on. -/
theorem test_window_offset :
    windowOffset { ftc with baseAddr := 0x10000 } 0x10FFF = some 0xFFF ∧
    windowOffset { ftc with baseAddr := 0x10000 } 0x11000 = none := by decide

/-- 3.1: issued after reset, GENT2 ends with STATUS = 0x202 and AFFINE PR14 with 0x302. -/
theorem test_error_codes :
    statusWord (executeWord ftc 0x12 (accept 0x12 start)).status = 0x202 ∧
    statusWord (executeWord ftc 0xE001E (accept 0xE001E start)).status = 0x302 ∧
    statusWord (executeWord ftc 0x00000100000F001E (accept 0 start)).status = 0x102 := by decide

/-- R124: `WR256` writes words 0 to 3 in order, `ISSUE` writes CMD and polls STATUS. -/
theorem test_host_program :
    wr256 .kb 1 = [.write 0x060 8 1, .write 0x068 8 0, .write 0x070 8 0, .write 0x078 8 0] ∧
    wr128 1 (1#128 <<< 64) = [.write 0x090 8 0, .write 0x098 8 1] ∧
    issue .mul = [.write 0x000 8 2, .engine, .read 0x008 8] := by decide

/-! ### Witnesses: for every statement with hypotheses, a state and operands that meet all of them -/

/-- A state in which every point register holds a value: the one point whose name is known. -/
def point : Config.Ext := ⟨none⟩
def full : State := { State.reset with pr := Vector.ofFn fun _ : Fin 14 => some point }

theorem witness_DecodeOfEncode :
    wellFormed (.affine 13) = true ∧ wellFormed (.base 3 true 2) = true ∧ wellFormed (.sel2 127 .y) = true := by decide

theorem witness_EncodeOfDecode : decode 0x107C16 = .cmd (.sel2 124 .y) := by decide

theorem witness_WordsMatchAtMostOneRow :
    (∃ r ∈ opTable, (0xE001E : Word) &&& r.mask = r.pattern) ∧ (∃ why, decode 0x1F = .illegal why) ∧
    ∀ r ∈ opTable, (0x1F : Word) &&& r.mask ≠ r.pattern :=
  ⟨by decide, ⟨.unassignedOpcode, by decide⟩, by decide⟩

theorem witness_AssemblerReadsBack : wellFormed (.base 1 true 2) = true := by decide

theorem witness_IdleCmdWriteAccepts : State.reset.status.busy = false := rfl

theorem witness_BusyCmdWriteDropped : (busy 2).status.busy = true := rfl

theorem witness_EngineStepCompletes :
    (busy 2).pending = some 2 ∧ State.reset.pending = none ∧ State.reset.schedule = [] := ⟨rfl, rfl, rfl⟩

theorem witness_ErrorsChangeOnlyStatus :
    (busy 0x12).pending = some 0x12 ∧ resultCode 0x12 (busy 0x12).toBlock ≠ .ok ∧
    (busy 0x1F).pending = some 0x1F ∧ resultCode 0x1F (busy 0x1F).toBlock ≠ .ok ∧
    (busy 0xE001E).pending = some 0xE001E ∧ resultCode 0xE001E (busy 0xE001E).toBlock ≠ .ok := by decide

/-- One word for each clause, at the ends of its range. -/
theorem witness_IllegalWordsReported :
    (∀ w : Word, (busy w).pending = some w) ∧
    (0x8000000 : Word).extractLsb' 27 37 ≠ 0#37 ∧ (0x8000000000000000 : Word).extractLsb' 27 37 ≠ 0#37 ∧
    (0x8016 : Word).getLsbD 15 = true ∧
    (5 ≤ (fieldOpc 5).toNat ∧ (fieldOpc 7).toNat ≤ 7) ∧ (9 ≤ (fieldOpc 9).toNat ∧ (fieldOpc 0xF).toNat ≤ 15) ∧
    0x1F ≤ (fieldOpc 0x1F).toNat ∧ 0x1F ≤ (fieldOpc 0xFF).toNat ∧
    ∃ r ∈ opTable, r.opc = fieldOpc 0x200016 ∧ (0x200016 : Word) &&& r.mask ≠ r.pattern :=
  ⟨fun _ => rfl, by decide, by decide, by decide, by decide, by decide, by decide, by decide, by decide⟩

theorem witness_ReservedFieldsReported :
    wellFormed (.affine 14) = false ∧ (busy (encode (.affine 14))).pending = some (encode (.affine 14)) ∧
    wellFormed (.affine 15) = false ∧ (busy (encode (.affine 15))).pending = some (encode (.affine 15)) ∧
    wellFormed (.base 0 true 3) = false ∧ (busy (encode (.base 0 true 3))).pending = some (encode (.base 0 true 3)) := by
  decide

theorem witness_MissingPointReported :
    wellFormed .correct = true ∧ 8 ∈ reads .correct ∧ 12 ∈ reads .correct ∧
    ({ State.reset with toBlock := Block.reset.setPoint 12 point } : State).valid 8 = false ∧
    ({ State.reset with toBlock := Block.reset.setPoint 8 point } : State).valid 12 = false ∧
    wellFormed (.affine 13) = true ∧ 13 ∈ reads (.affine 13) ∧ State.reset.valid 13 = false := by decide

theorem witness_StepRunsDecodedCommand :
    (busy 2).pending = some 2 ∧ decode 2 = .cmd .mul ∧ (busy 2).schedule = [] ∧
    ({ busy 2 with schedule := [.engine] } : State).schedule = .engine :: [] := by decide

theorem witness_AcceptedCommandRuns : wellFormed .simul = true := rfl

theorem witness_IssueRunsTheCommand : wellFormed (.affine 12) = true ∧ State.reset.status.busy = false := by decide

theorem witness_MaskReducesBelow251Bits : (2 : Nat) ^ 251 < 2 ^ 251 + 1 := by decide

theorem witness_BaseWritesSignedPoint :
    (∃ p : Aff, (0 : BitVec 2) = 0 ∧ p = ⟨full.px, full.py⟩) ∧ (∃ p : Aff, (1 : BitVec 2) = 1 ∧ p = ⟨full.qx, full.qy⟩) ∧
    ∃ p : Aff, (2 : BitVec 2) = 2 ∧ p = Config.params.generator := ⟨⟨_, rfl, rfl⟩, ⟨_, rfl, rfl⟩, ⟨_, rfl, rfl⟩⟩

theorem witness_RecodingInvertible :
    let s := { State.reset with u0 := 1, u1 := BitVec.ofNat 128 (2 ^ 126 - 1) }
    (∀ e, (s.sub e).toNat < 2 ^ 126) ∧ 1 ≤ s.u0.toNat := by decide

theorem witness_Gent2BuildsTable : full.point 8 = some point ∧ full.point 9 = some point := by decide

theorem witness_Gent4BuildsTable :
    full.point 8 = some point ∧ full.point 9 = some point ∧ full.point 10 = some point ∧ full.point 11 = some point := by
  decide

theorem witness_Sel2WritesSignedEntry : ∀ j < 8, full.point j = some ((fun _ => point : Nat → Config.Ext) j) := by decide

theorem witness_Sel4WritesSignedEntry : ∀ j < 8, full.point j = some ((fun _ => point : Nat → Config.Ext) j) := by decide

theorem witness_DblAddCofactorWriteX : full.point 12 = some point ∧ full.point 13 = some point := by decide

theorem witness_CorrectAddsE0OnLsb :
    full.point 12 = some point ∧ full.point 8 = some point ∧ full.sgn.lsb = false ∧
    ({ full with sgn := ⟨false, false, false, false, true⟩ } : State).point 12 = some point ∧
    ({ full with sgn := ⟨false, false, false, false, true⟩ } : State).point 8 = some point := by decide

theorem witness_AffineWritesResult :
    (0 : BitVec 4).toNat < 14 ∧ full.point (0 : BitVec 4).toNat = some point ∧
    (13 : BitVec 4).toNat < 14 ∧ full.point (13 : BitVec 4).toNat = some point := by decide

theorem witness_LaddersAreTheirCommands : ∀ j < 8, full.valid j = true := by decide

theorem witness_LaddersWriteOnlyXAndY :
    (Instr.ladder2 = .ladder2 ∨ Instr.ladder2 = .ladder4) ∧ (Instr.ladder4 = .ladder2 ∨ Instr.ladder4 = .ladder4) ∧
    ∀ j < 8, full.valid j = true := by decide

theorem witness_PublicOperationsLeaveOnlyTheResult :
    (Instr.mul = .mul ∨ Instr.mul = .mulGen ∨ Instr.mul = .simul) ∧
    (Instr.mulGen = .mul ∨ Instr.mulGen = .mulGen ∨ Instr.mulGen = .simul) ∧
    (Instr.simul = .mul ∨ Instr.simul = .mulGen ∨ Instr.simul = .simul) := by decide

theorem witness_ResetInputFromAnyState : ({ busy 2 with schedule := [.reset] } : State).schedule = .reset :: [] := rfl

theorem witness_EveryStepKeepsInvariant :
    MachineInv State.reset ∧ (∃ t, step State.reset = .next t) ∧ MachineInv (busy 0) ∧ ∃ t, step (busy 0) = .next t :=
  ⟨by unfold MachineInv LifecycleInv PointInv; decide, ⟨_, rfl⟩, by unfold MachineInv LifecycleInv PointInv; decide,
    ⟨_, rfl⟩⟩

/-- Two states that differ in a scalar and in the data about to be written to an operand register, and the steps of
both. -/
theorem witness_SecretsDoNotReachPublicState :
    let s := { State.reset with ka := 5, schedule := [.write 0x040 8 1, .engine] }
    let s' := { State.reset with ka := 6, schedule := [.write 0x040 8 2, .engine] }
    SamePublic s s' ∧ List.Forall₂ SameShape s.schedule s'.schedule ∧ (∃ t, step s = .next t) ∧
    (let r := { State.reset with schedule := [.read 0x004 4] }
     SamePublic r r ∧ List.Forall₂ SameShape r.schedule r.schedule ∧ ∃ f, step r = .fault f) := by
  refine ⟨⟨rfl, rfl, rfl, rfl, rfl, rfl, fun _ => rfl⟩, ?_, ⟨_, rfl⟩, ⟨rfl, rfl, rfl, rfl, rfl, rfl, fun _ => rfl⟩, ?_,
    ⟨_, rfl⟩⟩
  · exact .cons ⟨rfl, rfl, .inl (by decide)⟩ (.cons rfl .nil)
  · exact .cons rfl .nil

theorem witness_CommandsWriteOnlyTheirRegisters :
    (∃ t, exec .nop full = .next t) ∧ (∀ sel, Instr.nop ≠ .mask sel) ∧ Instr.nop ≠ .mul ∧ Instr.nop ≠ .mulGen ∧
    Instr.nop ≠ .simul ∧ (∀ n, Instr.nop ≠ .affine n) ∧ Instr.nop ≠ .gent2 ∧ Instr.nop ≠ .gent4 ∧
    Instr.nop ≠ .scrub :=
  ⟨⟨_, rfl⟩, by simp, by simp, by simp, by simp, by simp, by simp, by simp, by simp⟩

/-- A completion with IE = 1 raises irq; so does a CTRL write after a completion. -/
theorem witness_IrqRisesByCompletionOrCtrlWrite :
    (let s := { busy 0 with ie := true }
     s.pending = some 0 ∧ irq s.toBlock = false ∧ (∃ t, engineStep s = .next t) ∧
     ∃ t, step s = .next t ∧ irq t.toBlock = true) ∧
    (let s := { State.reset with status := ⟨false, true, false, false, .ok⟩, schedule := [.write 0x010 8 1] }
     irq s.toBlock = false ∧ ∃ t, step s = .next t ∧ irq t.toBlock = true) :=
  ⟨⟨rfl, rfl, ⟨_, rfl⟩, _, rfl, by decide⟩, rfl, _, rfl, by decide⟩

/-- The ends of the reserved ranges, and of the window. -/
theorem witness_WindowMapIsAsPrinted :
    (0x020 ≤ (0x020 : BitVec 12).toNat ∧ (0x03F : BitVec 12).toNat ≤ 0x03F) ∧
    (0x0C8 ≤ (0x0C8 : BitVec 12).toNat ∧ (0x0FF : BitVec 12).toNat ≤ 0x0FF) ∧
    0x1C0 ≤ (0x1C0 : BitVec 12).toNat ∧ 0x1C0 ≤ (0xFFF : BitVec 12).toNat ∧
    regAt 0x1BF = .ry 3 ∧ windowOffset ftc 4095 = some 0xFFF ∧ windowOffset ftc 4096 = none := by decide

theorem witness_NonAdmittedAccessFaults :
    ((4 : Nat) ≠ 8 ∨ (0x000 : BitVec 12).toNat % 8 ≠ 0) ∧ ((8 : Nat) ≠ 8 ∨ (0xFFF : BitVec 12).toNat % 8 ≠ 0) ∧
    (8 : Nat) = 8 ∧ (0xFF8 : BitVec 12).toNat % 8 = 0 := by decide

theorem witness_ReadsReturnAndChangeNothing :
    (0x040 : BitVec 12).toNat % 8 = 0 ∧ State.reset.status.busy = false ∧ (busy 2).status.busy = true ∧
    regAt 0x040 ∉ [Reg.cmd, .status, .ctrl, .pvalid, .reserved] ∧
    regAt 0x018 ∈ [Reg.cmd, .status, .ctrl, .pvalid, .reserved] := by decide

theorem witness_IdleOperandWriteStores :
    (0x0C0 : BitVec 12).toNat % 8 = 0 ∧ isOperand (regAt 0x0C0) = true ∧ (0x178 : BitVec 12).toNat % 8 = 0 ∧
    isOperand (regAt 0x178) = true ∧ State.reset.status.busy = false := by decide

theorem witness_BusyOperandWriteDropped :
    (0x040 : BitVec 12).toNat % 8 = 0 ∧ isOperand (regAt 0x040) = true ∧ (busy 2).status.busy = true := by decide

theorem witness_ReadOnlyAndReservedIgnoreWrites :
    (0x018 : BitVec 12).toNat % 8 = 0 ∧ regAt 0x018 = .pvalid ∧ (0x180 : BitVec 12).toNat % 8 = 0 ∧
    (∃ j, regAt 0x180 = .rx j) ∧ (0x1B8 : BitVec 12).toNat % 8 = 0 ∧ (∃ j, regAt 0x1B8 = .ry j) ∧
    (0x020 : BitVec 12).toNat % 8 = 0 ∧ regAt 0x020 = .reserved ∧ (0x1C0 : BitVec 12).toNat % 8 = 0 ∧
    regAt 0x1C0 = .reserved := by decide

/-! ### A configuration that meets every named property (R28 to R32) at once: the group of the integers modulo 20 -/

/-- Points are numbers modulo 20, q = 5, λ = 1; decompose(k) = (+, the low 128 bits of k, +, 0). -/
def toy (complete : Bool) : Params Nat where
  decompose k := (false, k.setWidth 128, false, 0)
  morph p := p
  expand p := p.x.toNat
  affine x := ⟨BitVec.ofNat 256 (x % 20), 0⟩
  neg x := 19 * x
  add x y := x + y
  dbl x := 2 * x
  generator := ⟨1, 0⟩
  q := 5
  eigenvalue := 1
  feBits := 256
  addComplete := complete
  latency _ := 1
  latencyError := 1
  baseAddr := 0

def toyGroup : CurveGroup Nat (ZMod 20) where
  val x := x
  valid _ := True
  valAff p := p.x.toNat
  onCurve p := p.x.toNat < 20 ∧ p.y = 0

theorem toy_propGroup (f : Bool) : PropGroup (toy f) (ZMod 20) := by
  refine ⟨show Nat.Prime 5 by decide, by simp [toy], AddSubgroup.zmultiples ((4 : ℕ) : ZMod 20), ?_⟩
  rw [Nat.card_zmultiples, ZMod.addOrderOf_coe _ (by decide)]
  exact show 20 / Nat.gcd 20 4 = 5 by decide

theorem toy_propPt (f : Bool) : PropPt (toy f) toyGroup := by
  refine ⟨fun x _ => ⟨trivial, ?_⟩, fun x _ => ⟨trivial, ?_⟩, fun p _ => ⟨trivial, rfl⟩, fun x _ => ⟨⟨?_, rfl⟩, ?_⟩, ?_⟩
  · have : (19 : ZMod 20) = -1 := by decide
    simp [toy, toyGroup, this]
  · simp [toy, toyGroup]
  · simp only [toy, BitVec.toNat_ofNat]
    omega
  · have h : x % 20 % 2 ^ 256 = x % 20 := by omega
    simp only [toy, toyGroup, BitVec.toNat_ofNat, h, ZMod.natCast_mod]
  · rintro ⟨x, y⟩ ⟨hx, hy⟩
    simp only at hx hy
    simp only [toy, hy, Nat.mod_eq_of_lt hx, BitVec.ofNat_toNat, BitVec.setWidth_eq]

theorem toy_propAdd (f : Bool) : PropAdd (toy f) toyGroup := fun _ _ _ _ _ => ⟨trivial, by simp [toy, toyGroup]⟩

theorem toy_propMorph (f : Bool) : PropMorph (toy f) toyGroup := fun _ h => ⟨h, by simp [toy]⟩

theorem toy_propDecomp (f : Bool) : PropDecomp (toy f) := by
  intro k h0 h1
  rw [intOf_eq_toNat] at h0 h1
  simp only [toy] at h1
  have hk : k.toNat % 2 ^ 128 = k.toNat := by omega
  simp only [toy, signed, BitVec.toNat_setWidth, hk, intOf_eq_toNat]
  refine ⟨⟨by omega, by decide⟩, ?_, h0⟩
  simp

/-- The block with P = 3, Q = 7 and k = 4 for both scalars. -/
def toyBlock : Block Nat := { Block.reset with px := 3, qx := 7, ka := 4, kb := 4 }

theorem toy_input (f : Bool) :
    PropInput (toy f) toyGroup toyBlock.ka ⟨toyBlock.px, toyBlock.py⟩ ∧
    PropInput (toy f) toyGroup toyBlock.kb ⟨toyBlock.qx, toyBlock.qy⟩ := by
  unfold PropInput
  simp only [toy, toyGroup]
  decide

theorem toy_unexceptional (a b : ZMod 20) : Unexceptional (toy true) a b := .inl rfl

theorem witness_MulGroupValue :
    PropPt (toy true) toyGroup ∧ PropAdd (toy true) toyGroup ∧ PropMorph (toy true) toyGroup ∧
    toyGroup.onCurve ⟨toyBlock.px, toyBlock.py⟩ ∧ ∀ a b (E0 E1 : ZMod 20), MulAddsOk (toy true) a b E0 E1 :=
  ⟨toy_propPt _, toy_propAdd _, toy_propMorph _, (toy_input true).1.2.2, fun _ _ _ _ =>
    ⟨by simp [DualTableAddsOk, toy_unexceptional], fun _ _ => toy_unexceptional _ _, fun _ => toy_unexceptional _ _⟩⟩

theorem witness_MulComputes4kP :
    PropGroup (toy true) (ZMod 20) ∧ PropPt (toy true) toyGroup ∧ PropAdd (toy true) toyGroup ∧
    PropMorph (toy true) toyGroup ∧ PropDecomp (toy true) ∧
    PropInput (toy true) toyGroup toyBlock.ka ⟨toyBlock.px, toyBlock.py⟩ ∧
    ∀ a b (E0 E1 : ZMod 20), MulAddsOk (toy true) a b E0 E1 :=
  ⟨toy_propGroup _, toy_propPt _, toy_propAdd _, toy_propMorph _, toy_propDecomp _, (toy_input true).1,
    witness_MulGroupValue.2.2.2.2⟩

theorem witness_SimulGroupValue :
    PropPt (toy true) toyGroup ∧ PropAdd (toy true) toyGroup ∧ PropMorph (toy true) toyGroup ∧
    toyGroup.onCurve ⟨toyBlock.px, toyBlock.py⟩ ∧ toyGroup.onCurve ⟨toyBlock.qx, toyBlock.qy⟩ ∧
    ∀ a0 a1 b0 b1 (E0 E1 E2 E3 : ZMod 20), SimulAddsOk (toy true) a0 a1 b0 b1 E0 E1 E2 E3 :=
  ⟨toy_propPt _, toy_propAdd _, toy_propMorph _, (toy_input true).1.2.2, (toy_input true).2.2.2, fun _ _ _ _ _ _ _ _ =>
    ⟨by simp [QuadTableAddsOk, toy_unexceptional], fun _ _ => toy_unexceptional _ _, fun _ => toy_unexceptional _ _⟩⟩

theorem witness_SimulComputes4aPbQ :
    PropGroup (toy true) (ZMod 20) ∧ PropPt (toy true) toyGroup ∧ PropAdd (toy true) toyGroup ∧
    PropMorph (toy true) toyGroup ∧ PropDecomp (toy true) ∧
    PropInput (toy true) toyGroup toyBlock.ka ⟨toyBlock.px, toyBlock.py⟩ ∧
    PropInput (toy true) toyGroup toyBlock.kb ⟨toyBlock.qx, toyBlock.qy⟩ ∧
    ∀ a0 a1 b0 b1 (E0 E1 E2 E3 : ZMod 20), SimulAddsOk (toy true) a0 a1 b0 b1 E0 E1 E2 E3 :=
  ⟨toy_propGroup _, toy_propPt _, toy_propAdd _, toy_propMorph _, toy_propDecomp _, (toy_input true).1,
    (toy_input true).2, witness_SimulGroupValue.2.2.2.2.2⟩

/-- The bases A = 1, B = 7, C = 3, D = 5 modulo 20, on which no add of either table is exceptional, although `add` is
not declared complete. -/
def toyBases : Block Nat :=
  (((Block.reset.setPoint 8 1).setPoint 9 7).setPoint 10 3).setPoint 11 5

theorem witness_TableValues :
    PropPt (toy false) toyGroup ∧ PropAdd (toy false) toyGroup ∧ toyBases.point 8 = some 1 ∧
    toyBases.point 9 = some 7 ∧ toyBases.point 10 = some 3 ∧ toyBases.point 11 = some 5 ∧
    (∀ x, toyGroup.valid x) ∧
    DualTableAddsOk (toy false) (toyGroup.val (1 : Nat)) (toyGroup.val (7 : Nat)) ∧
    QuadTableAddsOk (toy false) (toyGroup.val (1 : Nat)) (toyGroup.val (7 : Nat)) (toyGroup.val (3 : Nat)) (toyGroup.val (5 : Nat)) := by
  refine ⟨toy_propPt _, toy_propAdd _, by decide, by decide, by decide, by decide, fun _ => trivial, ?_, ?_⟩ <;>
    simp only [DualTableAddsOk, QuadTableAddsOk, Unexceptional, toyGroup] <;> decide

/-- The dual table on A = 1 and B = 7, and the quad table on 1, 7, 3, 5, modulo 20. -/
def toyTable (entries : List Nat) : Block Nat :=
  { (Block.reset : Block Nat) with pr := Vector.ofFn fun n : Fin 14 => some (entries.getD n.val 0) }
def toyDual : Block Nat := toyTable [3, 10, 17, 4, 1, 14, 15, 8]
def toyQuad : Block Nat := toyTable [1, 8, 4, 11, 6, 13, 9, 16]

theorem toyTable_entry (entries : List Nat) (v : Nat → ZMod 20)
    (hp : ∀ k < 8, (toyTable entries).point k = some (entries.getD k 0)) (hv : ∀ k < 8, (entries.getD k 0 : ZMod 20) = v k) :
    ∀ k < 8, ∃ x, (toyTable entries).point k = some x ∧ toyGroup.valid x ∧ toyGroup.val x = v k :=
  fun k hk => ⟨_, hp k hk, trivial, hv k hk⟩

theorem toyDual_entries : ∀ k < 8, ∃ x, toyDual.point k = some x ∧ toyGroup.valid x ∧
    toyGroup.val x = dualEntry (1 : ZMod 20) 7 k := toyTable_entry _ _ (by decide) (by decide)

theorem toyQuad_entries : ∀ k < 8, ∃ x, toyQuad.point k = some x ∧ toyGroup.valid x ∧
    toyGroup.val x = quadEntry (1 : ZMod 20) 7 3 5 k := toyTable_entry _ _ (by decide) (by decide)

theorem witness_SelectsReturnWindowValues :
    PropPt (toy false) toyGroup ∧
    (∀ k < 8, ∃ x, toyDual.point k = some x ∧ toyGroup.valid x ∧ toyGroup.val x = dualEntry (1 : ZMod 20) 7 k) ∧
    ∀ k < 8, ∃ x, toyQuad.point k = some x ∧ toyGroup.valid x ∧ toyGroup.val x = quadEntry (1 : ZMod 20) 7 3 5 k :=
  ⟨toy_propPt _, toyDual_entries, toyQuad_entries⟩

theorem witness_LadderGroupValues :
    PropPt (toy true) toyGroup ∧ PropAdd (toy true) toyGroup ∧
    (∀ k < 8, ∃ x, toyDual.point k = some x ∧ toyGroup.valid x ∧ toyGroup.val x = dualEntry (1 : ZMod 20) 7 k) ∧
    DualLadderAddsOk (toy true) toyDual.u0 toyDual.u1 (1 : ZMod 20) 7 ∧
    (∀ k < 8, ∃ x, toyQuad.point k = some x ∧ toyGroup.valid x ∧ toyGroup.val x = quadEntry (1 : ZMod 20) 7 3 5 k) ∧
    QuadLadderAddsOk (toy true) toyQuad.u0 toyQuad.u1 toyQuad.u2 toyQuad.u3 (1 : ZMod 20) 7 3 5 :=
  ⟨toy_propPt _, toy_propAdd _, toyDual_entries, fun _ _ => toy_unexceptional _ _, toyQuad_entries,
    fun _ _ => toy_unexceptional _ _⟩

end Sys2Proof.Tests
end

/-! SUPPORT. Points of a known group value: the registers that hold one, what each capability makes of them under the
named properties (R29 to R31), and the frame of the commands that write point registers only. -/

namespace Sys2Proof.Machine

section PointValues

variable {Ext E : Type} {g : CurveGroup Ext E} {x : Ext} {v : E} {b b' b₁ : Block Ext}

/-- The valid point x stands for the group element v. -/
def Represents (g : CurveGroup Ext E) (x : Ext) (v : E) : Prop := g.valid x ∧ g.val x = v

/-- PR[n] holds a valid point of value v. -/
def Block.Holds (b : Block Ext) (g : CurveGroup Ext E) (n : Nat) (v : E) : Prop :=
  ∃ x, b.point n = some x ∧ Represents g x v

/-- The table registers hold valid points of the values `entry`. -/
def Block.HoldsTable (b : Block Ext) (g : CurveGroup Ext E) (entry : Nat → E) : Prop := ∀ k < 8, b.Holds g k (entry k)

/-- The frame of a command that writes the point registers of `ns` and records its trace: subscalars, signs, affine
slots and the other point registers stay. -/
structure Keeps (ns : List Nat) (b b' : Block Ext) : Prop where
  u0 : b'.u0 = b.u0
  u1 : b'.u1 = b.u1
  u2 : b'.u2 = b.u2
  u3 : b'.u3 = b.u3
  sgn : b'.sgn = b.sgn
  px : b'.px = b.px
  py : b'.py = b.py
  qx : b'.qx = b.qx
  qy : b'.qy = b.qy
  point : ∀ n, n ∉ ns → b'.point n = b.point n

theorem Keeps.trans {ms ns : List Nat} (h : Keeps ms b b') (h' : Keeps ns b' b₁) : Keeps (ms ++ ns) b b₁ where
  u0 := h'.u0.trans h.u0
  u1 := h'.u1.trans h.u1
  u2 := h'.u2.trans h.u2
  u3 := h'.u3.trans h.u3
  sgn := h'.sgn.trans h.sgn
  px := h'.px.trans h.px
  py := h'.py.trans h.py
  qx := h'.qx.trans h.qx
  qy := h'.qy.trans h.qy
  point n hn := by
    rw [List.mem_append, not_or] at hn
    exact (h'.point n hn.2).trans (h.point n hn.1)

theorem Keeps.mono {ms ns : List Nat} (h : Keeps ms b b') (hsub : ms ⊆ ns) : Keeps ns b b' :=
  { h with point := fun n hn => h.point n fun hm => hn (hsub hm) }

@[simp] theorem Keeps.refl (ns : List Nat) : Keeps ns b b :=
  ⟨rfl, rfl, rfl, rfl, rfl, rfl, rfl, rfl, rfl, fun _ _ => rfl⟩

@[simp] theorem keeps_emit_iff {ns : List Nat} {ev : TraceEvent} : Keeps ns b (b'.emit ev) ↔ Keeps ns b b' :=
  ⟨fun h => { h with }, fun h => { h with }⟩

@[simp] theorem keeps_emitAll_iff {ns : List Nat} {evs : List TraceEvent} :
    Keeps ns b (b'.emitAll evs) ↔ Keeps ns b b' :=
  ⟨fun h => { h with }, fun h => { h with }⟩

@[simp] theorem keeps_setPoint_iff {ns : List Nat} {n : Nat} (hn : n ∈ ns) :
    Keeps ns b (b'.setPoint n x) ↔ Keeps ns b b' := by
  have hpoint : ∀ m, m ∉ ns → (b'.setPoint n x).point m = b'.point m := fun m hm =>
    point_setPoint_ne b' n x fun hmn => hm (hmn ▸ hn)
  exact ⟨fun h => { h with point := fun m hm => (hpoint m hm).symm.trans (h.point m hm) },
    fun h => { h with point := fun m hm => (hpoint m hm).trans (h.point m hm) }⟩

/-- One capability call leaves its result in its register. -/
theorem holds_putPoint {n : Nat} (hn : n < 14) (ev : TraceEvent) (hx : Represents g x v) :
    (b.putPoint n x ev).Holds g n v :=
  ⟨x, by simp [hn], hx⟩

theorem Keeps.holds {ns : List Nat} (h : Keeps ns b b') {n : Nat} (hn : n ∉ ns) (hv : b.Holds g n v) :
    b'.Holds g n v := by
  obtain ⟨x, hx, hr⟩ := hv
  exact ⟨x, (h.point n hn).trans hx, hr⟩

theorem Keeps.holdsTable {ns : List Nat} (h : Keeps ns b b') (hns : ∀ n ∈ ns, 8 ≤ n) {entry : Nat → E}
    (ht : b.HoldsTable g entry) : b'.HoldsTable g entry :=
  fun k hk => h.holds (fun hmem => absurd (hns k hmem) (by omega)) (ht k hk)

theorem Keeps.affineSource {ns : List Nat} (h : Keeps ns b b') {c : Params Ext} (src : BitVec 2) :
    b'.affineSource c src = b.affineSource c src := by
  unfold Block.affineSource
  rw [h.px, h.py, h.qx, h.qy]

theorem Block.Holds.valid {n : Nat} (h : b.Holds g n v) : b.valid n = true := by
  obtain ⟨x, hx, -⟩ := h
  exact (valid_iff b n).2 ⟨x, hx⟩

/-- A right table, as the function of its entries that the selects' equations take. -/
theorem Block.HoldsTable.exists_points {entry : Nat → E} (h : b.HoldsTable g entry) :
    ∃ T : Nat → Ext, ∀ k < 8, b.point k = some (T k) ∧ Represents g (T k) (entry k) := by
  obtain ⟨x0, -⟩ := h 0 (by omega)
  have : Nonempty Ext := ⟨x0⟩
  choose! T hT using h
  exact ⟨T, hT⟩

theorem Block.HoldsTable.all_valid {entry : Nat → E} (h : b.HoldsTable g entry) :
    [0, 1, 2, 3, 4, 5, 6, 7].all b.valid = true := by
  rw [List.all_eq_true]
  intro n hn
  exact (h n (List.mem_range.1 (show n ∈ List.range 8 from hn))).valid

end PointValues

section Capabilities

variable {Ext E : Type} [AddCommGroup E] {c : Params Ext} {g : CurveGroup Ext E} {x y : Ext} {v w : E}

theorem Represents.neg (hx : Represents g x v) (hpt : PropPt c g) : Represents g (c.neg x) (-v) := by
  obtain ⟨hvalid, rfl⟩ := hx
  obtain ⟨hneg, -⟩ := hpt
  exact hneg x hvalid

theorem Represents.dbl (hx : Represents g x v) (hpt : PropPt c g) : Represents g (c.dbl x) (2 • v) := by
  obtain ⟨hvalid, rfl⟩ := hx
  obtain ⟨-, hdbl, -⟩ := hpt
  exact hdbl x hvalid

theorem Represents.add (hx : Represents g x v) (hy : Represents g y w) (hadd : PropAdd c g)
    (hok : Unexceptional c v w) : Represents g (c.add x y) (v + w) := by
  obtain ⟨hvalidx, rfl⟩ := hx
  obtain ⟨hvalidy, rfl⟩ := hy
  exact hadd x y hvalidx hvalidy hok

theorem Represents.condNeg (hx : Represents g x v) (hpt : PropPt c g) (f : Bool) :
    Represents g (condNeg c f x) (signed f v) := by
  cases f with
  | false => exact hx
  | true => exact hx.neg hpt

theorem Represents.condAdd (hx : Represents g x v) (hy : Represents g y w) (hadd : PropAdd c g) {f : Bool}
    (hok : CorrectAddOk c f v w) : Represents g (condAdd c f x y) (v + f.toNat • w) := by
  cases f with
  | false => simpa [Machine.condAdd] using hx
  | true => simpa [Machine.condAdd] using hx.add hy hadd (hok rfl)

theorem represents_expand (hpt : PropPt c g) {p : Aff} (hp : g.onCurve p) :
    Represents g (c.expand p) (g.valAff p) := by
  obtain ⟨-, -, hexpand, -⟩ := hpt
  exact hexpand p hp

theorem Represents.affine (hx : Represents g x v) (hpt : PropPt c g) :
    g.onCurve (c.affine x) ∧ g.valAff (c.affine x) = v := by
  obtain ⟨hvalid, rfl⟩ := hx
  obtain ⟨-, -, -, haffine, -⟩ := hpt
  exact haffine x hvalid

end Capabilities

/-- A sequence of rules, from its first one's result and the rest's. -/
theorem bind_eq_some_of {α β : Type} {p : Option α} {f : α → Option β} {a : α} {r : β} (hp : p = some a)
    (hf : f a = some r) : (p >>= f) = some r := by
  rw [hp]
  exact hf

/-- A well-formed command whose reads hold values and whose rule succeeds (R143), at any configuration. -/
theorem execute_ok {Ext : Type} {c : Params Ext} {i : Instr} {b b' : Block Ext} (hw : wellFormed i = true)
    (hr : (reads i).all b.valid = true) (hp : perform c i b.clearTrace = some b') :
    execute c i b = finish .ok b' := by
  rw [execute, executeInstr_ok hw hr hp]

end Sys2Proof.Machine

/-! SUPPORT. The group values of the two precomputed tables (R201, R203). -/

namespace Sys2Proof.Machine

section TableBuild

variable {Ext E : Type} [AddCommGroup E] {c : Params Ext} {g : CurveGroup Ext E} {b : Block Ext} {A B C D : E}

theorem performGent2_holds (hpt : PropPt c g) (hadd : PropAdd c g) (hA : b.Holds g 8 A) (hB : b.Holds g 9 B)
    (hok : DualTableAddsOk c A B) :
    ∃ b', performGent2 c b = some b' ∧ Keeps (List.range 8) b b' ∧ b'.HoldsTable g (dualEntry A B) := by
  obtain ⟨xA, hxA, rA⟩ := hA
  obtain ⟨xB, hxB, rB⟩ := hB
  obtain ⟨ok2A, okAB, okAnB, okA2B, ok3AB, ok3A2B, ok3AB2B⟩ := hok
  have r3A := (rA.dbl hpt).add rA hadd ok2A
  rw [show 2 • A + A = 3 • A by abel] at r3A
  have r3AB := r3A.add rB hadd ok3AB
  have r2B := rB.dbl hpt
  simp only [performGent2, hxA, hxB, Option.bind_eq_bind, Option.bind_some, copyPoint, putPoint_eq]
  refine ⟨_, rfl, by simp, fun k hk => ?_⟩
  simp only [Block.Holds, emit_point, point_setPoint]
  interval_cases k
  · exact ⟨_, rfl, r3A⟩
  · exact ⟨_, rfl, r3AB⟩
  · exact ⟨_, rfl, r3A.add r2B hadd ok3A2B⟩
  · have r := r3AB.add r2B hadd ok3AB2B
    rw [show 3 • A + B + 2 • B = 3 • A + 3 • B by abel] at r
    exact ⟨_, rfl, r⟩
  · exact ⟨_, rfl, rA⟩
  · have r := rA.add (rB.neg hpt) hadd okAnB
    rw [← sub_eq_add_neg] at r
    exact ⟨_, rfl, r⟩
  · exact ⟨_, rfl, rA.add r2B hadd okA2B⟩
  · exact ⟨_, rfl, rA.add rB hadd okAB⟩

theorem performGent4_holds (hadd : PropAdd c g) (hA : b.Holds g 8 A) (hB : b.Holds g 9 B) (hC : b.Holds g 10 C)
    (hD : b.Holds g 11 D) (hok : QuadTableAddsOk c A B C D) :
    ∃ b', performGent4 c b = some b' ∧ Keeps (List.range 8) b b' ∧ b'.HoldsTable g (quadEntry A B C D) := by
  obtain ⟨xA, hxA, rA⟩ := hA
  obtain ⟨xB, hxB, rB⟩ := hB
  obtain ⟨xC, hxC, rC⟩ := hC
  obtain ⟨xD, hxD, rD⟩ := hD
  obtain ⟨okAB, okAC, okABC, okAD, okABD, okACD, okABCD⟩ := hok
  have rAB := rA.add rB hadd okAB
  have rAC := rA.add rC hadd okAC
  have rABC := rAB.add rC hadd okABC
  simp only [performGent4, hxA, hxB, hxC, hxD, Option.bind_eq_bind, Option.bind_some, copyPoint, putPoint_eq]
  refine ⟨_, rfl, by simp, fun k hk => ?_⟩
  simp only [Block.Holds, emit_point, point_setPoint]
  interval_cases k
  · exact ⟨_, rfl, by simpa [quadEntry, Nat.testBit] using rA⟩
  · exact ⟨_, rfl, by simpa [quadEntry, Nat.testBit] using rAB⟩
  · exact ⟨_, rfl, by simpa [quadEntry, Nat.testBit] using rAC⟩
  · exact ⟨_, rfl, by simpa [quadEntry, Nat.testBit] using rABC⟩
  · exact ⟨_, rfl, by simpa [quadEntry, Nat.testBit] using rA.add rD hadd okAD⟩
  · exact ⟨_, rfl, by simpa [quadEntry, Nat.testBit] using rAB.add rD hadd okABD⟩
  · exact ⟨_, rfl, by simpa [quadEntry, Nat.testBit] using rAC.add rD hadd okACD⟩
  · exact ⟨_, rfl, by simpa [quadEntry, Nat.testBit] using rABC.add rD hadd okABCD⟩

end TableBuild

end Sys2Proof.Machine

/-! SUPPORT. What a select reads from a right table (R222, R230), and the ladder's running sum (R231). -/

namespace Sys2Proof.Machine

section Digits

variable {E : Type} [AddCommGroup E]

/-- R230's table: the entry SEL2's index names, under its sign, is the window value. -/
theorem signed_dualEntry_select (u0 u1 : U128) (i : Nat) (A B : E) :
    signed (selectNeg2 u0 i) (dualEntry A B (selectIndex2 u0 u1 i)) = dualWindow u0 u1 A B i := by
  rw [selectNeg2_eq, selectIndex2_eq]
  simp only [dualWindow, dualDigit, digit, digitSign]
  cases u0.getLsbD (i + 1) <;> cases u0.getLsbD i <;> cases u1.getLsbD (i + 1) <;> cases u1.getLsbD i <;>
    simp only [signed, dualEntry, Bool.xor_false, Bool.xor_true, Bool.not_true, Bool.not_false, Bool.toNat_true,
      Bool.toNat_false, if_true, if_false, Nat.reduceAdd, Nat.reduceMul, reduceCtorEq] <;>
    module

/-- A sign bit of 0 in U0 negates. -/
theorem signed_not_eq_digitSign_smul (u0 : U128) (t : Nat) (x : E) :
    signed (!u0.getLsbD t) x = digitSign u0 t • x := by
  unfold signed digitSign
  cases u0.getLsbD t <;> simp

theorem digit_smul (u0 v : U128) (t : Nat) (x : E) :
    digit u0 v t • x = digitSign u0 t • (if v.getLsbD t then x else 0) := by
  unfold digit
  split <;> simp

theorem quadEntry_of_bits (A B C D : E) (p q r : Bool) :
    quadEntry A B C D (p.toNat + 2 * q.toNat + 4 * r.toNat) =
      A + (if p then B else 0) + (if q then C else 0) + (if r then D else 0) := by
  cases p <;> cases q <;> cases r <;> rfl

/-- R222's Meaning: the entry SEL4's index names, under its sign, is the digit. -/
theorem signed_quadEntry_select (u0 u1 u2 u3 : U128) (i : Nat) (A B C D : E) :
    signed (selectNeg4 u0 i) (quadEntry A B C D (selectIndex4 u1 u2 u3 i)) = quadDigit u0 u1 u2 u3 A B C D i := by
  rw [selectNeg4_eq, selectIndex4_eq, quadEntry_of_bits, signed_not_eq_digitSign_smul]
  simp only [quadDigit, digit_smul, smul_add]

/-- Σ_{i ≤ t < n} 2^(t-i)·f(t): the sums of R231. -/
def ladderSum (f : Nat → E) (n i : Nat) : E := ∑ t ∈ Finset.Ico i n, (2 ^ (t - i) : Nat) • f t

/-- One position down: the sum is doubled and the position's own term added. -/
theorem ladderSum_succ (f : Nat → E) {n i : Nat} (h : i < n) :
    ladderSum f n i = 2 • ladderSum f n (i + 1) + f i := by
  unfold ladderSum
  rw [Finset.sum_eq_sum_Ico_succ_bot h, Finset.smul_sum, add_comm]
  congr 1
  · refine Finset.sum_congr rfl fun t ht => ?_
    rw [Finset.mem_Ico] at ht
    rw [← mul_smul, ← pow_succ', show t - (i + 1) + 1 = t - i by omega]
  · simp

theorem ladderSum_self (f : Nat → E) (n : Nat) : ladderSum f n n = 0 := by simp [ladderSum]

/-- Two positions down, as LADDER2 goes. -/
theorem dualSum_window (u0 u1 : U128) (A B : E) {i : Nat} (h : i < 127) :
    dualSum u0 u1 A B i = 4 • dualSum u0 u1 A B (i + 2) + dualWindow u0 u1 A B i := by
  change ladderSum (dualDigit u0 u1 A B) 128 i = 4 • ladderSum (dualDigit u0 u1 A B) 128 (i + 2) + _
  rw [ladderSum_succ _ (by omega), ladderSum_succ _ (by omega), dualWindow]
  module

theorem dualSum_top (u0 u1 : U128) (A B : E) : dualSum u0 u1 A B 126 = dualWindow u0 u1 A B 126 := by
  rw [dualSum_window u0 u1 A B (by omega), show dualSum u0 u1 A B (126 + 2) = 0 from ladderSum_self _ _]
  module

/-- One position down, as LADDER4 goes. -/
theorem quadSum_digit (u0 u1 u2 u3 : U128) (A B C D : E) {i : Nat} (h : i < 127) :
    quadSum u0 u1 u2 u3 A B C D i =
      2 • quadSum u0 u1 u2 u3 A B C D (i + 1) + quadDigit u0 u1 u2 u3 A B C D i :=
  ladderSum_succ _ h

theorem quadSum_top (u0 u1 u2 u3 : U128) (A B C D : E) :
    quadSum u0 u1 u2 u3 A B C D 126 = quadDigit u0 u1 u2 u3 A B C D 126 := by
  rw [quadSum_digit _ _ _ _ _ _ _ _ (by omega), show quadSum u0 u1 u2 u3 A B C D (126 + 1) = 0 from ladderSum_self _ _]
  module

/-- The whole sum of signed points is a multiple of one point. -/
theorem sum_two_pow_smul (f : Nat → Int) (n : Nat) (A : E) :
    ∑ t ∈ Finset.range n, (2 ^ t : Nat) • f t • A = (∑ t ∈ Finset.range n, f t * 2 ^ t) • A := by
  rw [Finset.sum_smul]
  refine Finset.sum_congr rfl fun t _ => ?_
  rw [← natCast_zsmul, ← mul_smul, mul_comm]
  norm_cast

/-- R231 at position 0. -/
theorem dualSum_zero (u0 u1 : U128) (A B : E) :
    dualSum u0 u1 A B 0 = signValue 128 u0 • A + digitValue 128 u0 u1 • B := by
  simp only [dualSum, dualDigit, ← Finset.range_eq_Ico, Nat.sub_zero, smul_add, Finset.sum_add_distrib,
    sum_two_pow_smul, signValue, digitValue]

theorem quadSum_zero (u0 u1 u2 u3 : U128) (A B C D : E) :
    quadSum u0 u1 u2 u3 A B C D 0 =
      signValue 127 u0 • A + digitValue 127 u0 u1 • B + digitValue 127 u0 u2 • C + digitValue 127 u0 u3 • D := by
  simp only [quadSum, quadDigit, ← Finset.range_eq_Ico, Nat.sub_zero, smul_add, Finset.sum_add_distrib,
    sum_two_pow_smul, signValue, digitValue]

end Digits

section Ladder

variable {Ext E : Type} [AddCommGroup E] {c : Params Ext} {g : CurveGroup Ext E} {b : Block Ext} {A B C D v w : E}

theorem performSel2_holds (hpt : PropPt c g) (ht : b.HoldsTable g (dualEntry A B)) (i : Nat) (d : PointDest) :
    ∃ b', performSel2 c i d b = some b' ∧ Keeps [destReg d] b b' ∧
      b'.Holds g (destReg d) (dualWindow b.u0 b.u1 A B i) := by
  obtain ⟨T, hT⟩ := ht.exists_points
  obtain ⟨-, hr⟩ := hT _ (selectIndex2_lt b.u0 b.u1 i)
  refine ⟨_, performSel2_eq c i d b T fun k hk => (hT k hk).1, by simp, ?_⟩
  rw [← signed_dualEntry_select]
  exact holds_putPoint (by cases d <;> decide) _ (hr.condNeg hpt _)

theorem performSel4_holds (hpt : PropPt c g) (ht : b.HoldsTable g (quadEntry A B C D)) (i : Nat) (d : PointDest) :
    ∃ b', performSel4 c i d b = some b' ∧ Keeps [destReg d] b b' ∧
      b'.Holds g (destReg d) (quadDigit b.u0 b.u1 b.u2 b.u3 A B C D i) := by
  obtain ⟨T, hT⟩ := ht.exists_points
  obtain ⟨-, hr⟩ := hT _ (selectIndex4_lt b.u1 b.u2 b.u3 i)
  refine ⟨_, performSel4_eq c i d b T fun k hk => (hT k hk).1, by simp, ?_⟩
  rw [← signed_quadEntry_select]
  exact holds_putPoint (by cases d <;> decide) _ (hr.condNeg hpt _)

theorem performDbl_holds (hpt : PropPt c g) (hx : b.Holds g 12 v) :
    ∃ b', performDbl c b = some b' ∧ Keeps [12] b b' ∧ b'.Holds g 12 (2 • v) := by
  obtain ⟨x, hx, hr⟩ := hx
  simp only [performDbl, hx, Option.bind_eq_bind, Option.bind_some]
  exact ⟨_, rfl, by simp, holds_putPoint (by decide) _ (hr.dbl hpt)⟩

theorem performAdd_holds (hadd : PropAdd c g) (hx : b.Holds g 12 v) (hy : b.Holds g 13 w)
    (hok : Unexceptional c v w) :
    ∃ b', performAdd c b = some b' ∧ Keeps [12] b b' ∧ b'.Holds g 12 (v + w) := by
  obtain ⟨x, hx, hrx⟩ := hx
  obtain ⟨y, hy, hry⟩ := hy
  simp only [performAdd, hx, hy, Option.bind_eq_bind, Option.bind_some]
  exact ⟨_, rfl, by simp, holds_putPoint (by decide) _ (hrx.add hry hadd hok)⟩

/-- LADDER2's loop from position 2n down: X goes from the sum there to the whole sum. -/
theorem ladder2Loop_holds (hpt : PropPt c g) (hadd : PropAdd c g) (u0 u1 : U128) (n : Nat) (hn : n ≤ 63)
    (hok : ∀ j < n, Unexceptional c (4 • dualSum u0 u1 A B (2 * j + 2)) (dualWindow u0 u1 A B (2 * j))) :
    ∀ b : Block Ext, b.u0 = u0 → b.u1 = u1 → b.HoldsTable g (dualEntry A B) →
      b.Holds g 12 (dualSum u0 u1 A B (2 * n)) →
      ∃ b', ladder2Loop c n b = some b' ∧ Keeps [12, 13] b b' ∧ b'.Holds g 12 (dualSum u0 u1 A B 0) := by
  induction n with
  | zero => exact fun b _ _ _ hx => ⟨b, rfl, Keeps.refl _, hx⟩
  | succ n ih =>
    intro b h0 h1 ht hx
    obtain ⟨b1, hrun1, hkeep1, hy⟩ := performSel2_holds hpt ht (2 * n) .y
    rw [h0, h1] at hy
    obtain ⟨b2, hrun2, hkeep2, hx2⟩ := performDbl_holds hpt (hkeep1.holds (by decide) hx)
    obtain ⟨b3, hrun3, hkeep3, hx3⟩ := performDbl_holds hpt hx2
    have hx4 : 2 • 2 • dualSum u0 u1 A B (2 * (n + 1)) = 4 • dualSum u0 u1 A B (2 * n + 2) := by
      rw [← mul_smul]; rfl
    rw [hx4] at hx3
    have hy3 := hkeep3.holds (by decide) (hkeep2.holds (by decide) hy)
    obtain ⟨b4, hrun4, hkeep4, hx4⟩ := performAdd_holds hadd hx3 hy3 (hok n n.lt_succ_self)
    rw [← dualSum_window u0 u1 A B (by omega)] at hx4
    have hkeep : Keeps [12, 13] b b4 :=
      (hkeep1.trans (hkeep2.trans (hkeep3.trans hkeep4))).mono (by decide)
    obtain ⟨b', hrun, hkeep', hx'⟩ := ih (by omega) (fun j hj => hok j (by omega)) b4 (hkeep.u0.trans h0)
      (hkeep.u1.trans h1) (hkeep.holdsTable (by decide) ht) hx4
    refine ⟨b', ?_, (hkeep.trans hkeep').mono (by decide), hx'⟩
    simp [ladder2Loop, hrun1, hrun2, hrun3, hrun4, hrun]

theorem performLadder2_holds (hpt : PropPt c g) (hadd : PropAdd c g) (ht : b.HoldsTable g (dualEntry A B))
    (hok : DualLadderAddsOk c b.u0 b.u1 A B) :
    ∃ b', performLadder2 c b = some b' ∧ Keeps [12, 13] b b' ∧ b'.Holds g 12 (dualSum b.u0 b.u1 A B 0) := by
  obtain ⟨b1, hrun1, hkeep1, hx⟩ := performSel2_holds hpt ht 126 .x
  rw [← dualSum_top] at hx
  obtain ⟨b', hrun, hkeep, hx'⟩ := ladder2Loop_holds hpt hadd b.u0 b.u1 63 le_rfl hok b1 hkeep1.u0 hkeep1.u1
    (hkeep1.holdsTable (by decide) ht) hx
  exact ⟨b', bind_eq_some_of hrun1 hrun, (hkeep1.trans hkeep).mono (by decide), hx'⟩

/-- LADDER4's loop from position n down: X goes from the sum there to the whole sum. -/
theorem ladder4Loop_holds (hpt : PropPt c g) (hadd : PropAdd c g) (u0 u1 u2 u3 : U128) (n : Nat) (hn : n ≤ 126)
    (hok : ∀ i < n, Unexceptional c (2 • quadSum u0 u1 u2 u3 A B C D (i + 1)) (quadDigit u0 u1 u2 u3 A B C D i)) :
    ∀ b : Block Ext, b.u0 = u0 → b.u1 = u1 → b.u2 = u2 → b.u3 = u3 → b.HoldsTable g (quadEntry A B C D) →
      b.Holds g 12 (quadSum u0 u1 u2 u3 A B C D n) →
      ∃ b', ladder4Loop c n b = some b' ∧ Keeps [12, 13] b b' ∧ b'.Holds g 12 (quadSum u0 u1 u2 u3 A B C D 0) := by
  induction n with
  | zero => exact fun b _ _ _ _ _ hx => ⟨b, rfl, Keeps.refl _, hx⟩
  | succ n ih =>
    intro b h0 h1 h2 h3 ht hx
    obtain ⟨b1, hrun1, hkeep1, hy⟩ := performSel4_holds hpt ht n .y
    rw [h0, h1, h2, h3] at hy
    obtain ⟨b2, hrun2, hkeep2, hx2⟩ := performDbl_holds hpt (hkeep1.holds (by decide) hx)
    obtain ⟨b3, hrun3, hkeep3, hx3⟩ :=
      performAdd_holds hadd hx2 (hkeep2.holds (by decide) hy) (hok n n.lt_succ_self)
    rw [← quadSum_digit u0 u1 u2 u3 A B C D (by omega)] at hx3
    have hkeep : Keeps [12, 13] b b3 := (hkeep1.trans (hkeep2.trans hkeep3)).mono (by decide)
    obtain ⟨b', hrun, hkeep', hx'⟩ := ih (by omega) (fun i hi => hok i (by omega)) b3 (hkeep.u0.trans h0)
      (hkeep.u1.trans h1) (hkeep.u2.trans h2) (hkeep.u3.trans h3) (hkeep.holdsTable (by decide) ht) hx3
    refine ⟨b', ?_, (hkeep.trans hkeep').mono (by decide), hx'⟩
    simp [ladder4Loop, hrun1, hrun2, hrun3, hrun]

theorem performLadder4_holds (hpt : PropPt c g) (hadd : PropAdd c g) (ht : b.HoldsTable g (quadEntry A B C D))
    (hok : QuadLadderAddsOk c b.u0 b.u1 b.u2 b.u3 A B C D) :
    ∃ b', performLadder4 c b = some b' ∧ Keeps [12, 13] b b' ∧
      b'.Holds g 12 (quadSum b.u0 b.u1 b.u2 b.u3 A B C D 0) := by
  obtain ⟨b1, hrun1, hkeep1, hx⟩ := performSel4_holds hpt ht 126 .x
  rw [← quadSum_top] at hx
  obtain ⟨b', hrun, hkeep, hx'⟩ := ladder4Loop_holds hpt hadd b.u0 b.u1 b.u2 b.u3 126 le_rfl hok b1 hkeep1.u0
    hkeep1.u1 hkeep1.u2 hkeep1.u3 (hkeep1.holdsTable (by decide) ht) hx
  exact ⟨b', bind_eq_some_of hrun1 hrun, (hkeep1.trans hkeep).mono (by decide), hx'⟩

end Ladder

/-- Settles O28: each entry is a chain of capability calls, each add among R205's pairs. -/
theorem tableValues : Obligations.TableValues := by
  intro Ext E _ c g b xA xB hpt hadd h8 h9 hvA hvB
  have hA : b.Holds g 8 (g.val xA) := ⟨xA, h8, hvA, rfl⟩
  have hB : b.Holds g 9 (g.val xB) := ⟨xB, h9, hvB, rfl⟩
  refine ⟨fun hok => ?_, fun xC xD h10 h11 hvC hvD hok => ?_⟩
  · obtain ⟨b', hrun, -, ht⟩ := performGent2_holds (b := b.clearTrace) hpt hadd hA hB hok
    rw [execute_ok (i := .gent2) rfl (by simp [reads, hA.valid, hB.valid]) hrun]
    exact ht
  · have hC : b.Holds g 10 (g.val xC) := ⟨xC, h10, hvC, rfl⟩
    have hD : b.Holds g 11 (g.val xD) := ⟨xD, h11, hvD, rfl⟩
    obtain ⟨b', hrun, -, ht⟩ := performGent4_holds (b := b.clearTrace) hadd hA hB hC hD hok
    rw [execute_ok (i := .gent4) rfl (by simp [reads, hA.valid, hB.valid, hC.valid, hD.valid]) hrun]
    exact ht

/-- Settles O31, from the selects' values on a right table. -/
theorem selectsReturnWindowValues : Obligations.SelectsReturnWindowValues := by
  intro Ext E _ c g b i d A B C D hpt
  refine ⟨fun ht => ?_, fun ht => ?_⟩
  · have ht : b.HoldsTable g (dualEntry A B) := ht
    obtain ⟨b', hrun, -, hy⟩ := performSel2_holds (b := b.clearTrace) hpt ht i.toNat d
    rw [execute_ok (i := .sel2 i d) rfl ht.all_valid hrun]
    exact hy
  · have ht : b.HoldsTable g (quadEntry A B C D) := ht
    obtain ⟨b', hrun, -, hy⟩ := performSel4_holds (b := b.clearTrace) hpt ht i.toNat d
    rw [execute_ok (i := .sel4 i d) rfl ht.all_valid hrun]
    exact hy

/-- Settles O37: each ladder keeps X at the sum of the positions it has passed; at position 0 that is R231's value. -/
theorem ladderGroupValues : Obligations.LadderGroupValues := by
  intro Ext E _ c g b A B C D hpt hadd
  refine ⟨fun ht hok => ?_, fun ht hok => ?_⟩
  · have ht : b.HoldsTable g (dualEntry A B) := ht
    obtain ⟨b', hrun, -, hx⟩ := performLadder2_holds (b := b.clearTrace) hpt hadd ht hok
    rw [execute_ok (i := .ladder2) rfl ht.all_valid hrun, ← dualSum_zero]
    exact hx
  · have ht : b.HoldsTable g (quadEntry A B C D) := ht
    obtain ⟨b', hrun, -, hx⟩ := performLadder4_holds (b := b.clearTrace) hpt hadd ht hok
    rw [execute_ok (i := .ladder4) rfl ht.all_valid hrun, ← quadSum_zero]
    exact hx

end Sys2Proof.Machine

/-! SUPPORT. What the recoded subscalars are worth (R181, R183): the sign scalar's digits, and a lane's digits under it,
both for any top position m (127 for RECODE2, 126 for RECODE4). -/

namespace Sys2Proof.Machine

/-- The low n + 1 bits of a subscalar: bit n on top of the low n. -/
theorem toNat_mod_two_pow_succ (u : U128) (n : Nat) :
    u.toNat % 2 ^ (n + 1) = u.toNat % 2 ^ n + 2 ^ n * (u.getLsbD n).toNat := by
  rw [Nat.mod_pow_succ, BitVec.getLsbD, Nat.toNat_testBit]

theorem getLsbD_zero_toNat (u : U128) : (u.getLsbD 0).toNat = u.toNat % 2 := by
  simpa [Nat.mod_one] using (toNat_mod_two_pow_succ u 0).symm

section SignScalar

/-- R181 (1), R183 (1): the signs of the low n bits of U0, as the number they write. -/
theorem signValue_eq (n : Nat) (u : U128) : signValue n u = 2 * ((u.toNat % 2 ^ n : Nat) : Int) - (2 ^ n - 1) := by
  induction n with
  | zero => simp [signValue, Nat.mod_one]
  | succ n ih =>
    have hsucc : signValue (n + 1) u = signValue n u + digitSign u n * 2 ^ n := Finset.sum_range_succ _ n
    rw [hsucc, ih, toNat_mod_two_pow_succ, digitSign, pow_succ]
    cases u.getLsbD n <;> simp <;> ring

theorem getLsbD_recodeSign_top {m : Nat} (hm : m < 128) (a : U128) : (recodeSign m a).getLsbD m = true := by
  simp [recodeSign, hm]

theorem recodeLsb_toNat (a : U128) : (recodeLsb a).toNat = (a - 1#128).toNat % 2 := by
  have ha := a.isLt
  have hnot : (recodeLsb a).toNat = 1 - a.toNat % 2 := by
    rw [← getLsbD_zero_toNat, recodeLsb]
    cases a.getLsbD 0 <;> rfl
  rw [hnot, BitVec.toNat_sub, BitVec.toNat_ofNat]
  omega

/-- Clearing the low bit downwards and halving is halving a - 1: 0 wraps to the full power of two. -/
theorem sub_recodeLsb_shift (a : U128) :
    (a - (BitVec.ofBool (recodeLsb a)).setWidth 128) >>> 1 = (a - 1#128) >>> 1 := by
  have hlow := getLsbD_zero_toNat a
  rw [recodeLsb]
  cases h : a.getLsbD 0
  · rfl
  · rw [h, Bool.toNat_true] at hlow
    have hzero : (BitVec.ofBool (!true)).setWidth 128 = 0#128 := rfl
    rw [hzero, BitVec.sub_zero]
    apply BitVec.eq_of_toNat_eq
    rw [BitVec.toNat_ushiftRight, BitVec.toNat_ushiftRight, BitVec.toNat_sub, BitVec.toNat_ofNat,
      Nat.shiftRight_eq_div_pow, Nat.shiftRight_eq_div_pow]
    omega

/-- The sign scalar up to its top bit: half of a - 1, and the top bit set. -/
theorem recodeSign_toNat_mod {m : Nat} (hm : m < 128) (a : U128) :
    (recodeSign m a).toNat % 2 ^ (m + 1) = (a - 1#128).toNat / 2 % 2 ^ m + 2 ^ m := by
  have hlow : (recodeSign m a).toNat % 2 ^ m = (a - 1#128).toNat / 2 % 2 ^ m := by
    have hpow : 2 ^ m < 2 ^ 128 := Nat.pow_lt_pow_right (by omega) hm
    rw [recodeSign, sub_recodeLsb_shift, ← BitVec.twoPow_eq, BitVec.toNat_or, BitVec.toNat_twoPow, Nat.or_mod_two_pow,
      Nat.mod_eq_of_lt hpow, Nat.mod_self, Nat.or_zero, BitVec.toNat_ushiftRight, Nat.shiftRight_eq_div_pow, pow_one]
  rw [toNat_mod_two_pow_succ, getLsbD_recodeSign_top hm, hlow, Bool.toNat_true, Nat.mul_one]

/-- R181 (2), R183 (2): the sign scalar and LSB together are the subscalar, 0 counting as the full power of two. -/
theorem signValue_recodeSign {m : Nat} (hm : m < 128) (a : U128) :
    signValue (m + 1) (recodeSign m a) + (recodeLsb a).toNat =
      (((a - 1#128).toNat % 2 ^ (m + 1) + 1 : Nat) : Int) := by
  have hhalf : (a - 1#128).toNat % 2 ^ (m + 1) =
      (a - 1#128).toNat % 2 + 2 * ((a - 1#128).toNat / 2 % 2 ^ m) := by rw [pow_succ', Nat.mod_mul]
  rw [signValue_eq, recodeSign_toNat_mod hm, recodeLsb_toNat, hhalf]
  push_cast
  ring

end SignScalar

section Lane

variable (s v x y : U128)

theorem recodeLane_succ (n : Nat) (an : U128) : recodeLane (n + 1) an v = recodeBit an n (recodeLane n an v) := by
  simp [recodeLane, List.range_succ]

/-- One mask position: 2^(n+1) is added where the lane has a digit and its sign is -1. -/
theorem recodeBit_toNat {n : Nat} (hn : n < 128) :
    (recodeBit (~~~s) n x).toNat = (x.toNat + 2 ^ (n + 1) * (x.getLsbD n && !s.getLsbD n).toNat) % 2 ^ 128 := by
  have hmask : x &&& (~~~s &&& (1#128 <<< n)) = if x.getLsbD n && !s.getLsbD n then BitVec.twoPow 128 n else 0#128 := by
    rw [← BitVec.twoPow_eq, ← BitVec.and_assoc, BitVec.and_twoPow]
    simp [hn]
  have hpow : 2 ^ n < 2 ^ 128 := Nat.pow_lt_pow_right (by omega) hn
  rw [recodeBit, hmask, BitVec.toNat_add, BitVec.toNat_shiftLeft, Nat.shiftLeft_eq]
  cases x.getLsbD n && !s.getLsbD n
  · simp
  · rw [if_pos rfl, BitVec.toNat_twoPow, Nat.mod_eq_of_lt hpow, Bool.toNat_true, Nat.mul_one, Nat.add_mod_mod,
      ← pow_add]

/-- A mask position changes the bits above it only. -/
theorem recodeBit_toNat_mod {n : Nat} (hn : n < 128) :
    (recodeBit (~~~s) n x).toNat % 2 ^ (n + 1) = x.toNat % 2 ^ (n + 1) := by
  rw [recodeBit_toNat s x hn, Nat.mod_mod_of_dvd _ (pow_dvd_pow 2 hn), Nat.add_mul_mod_self_left]

theorem digitValue_succ (n : Nat) : digitValue (n + 1) s x = digitValue n s x + digit s x n * 2 ^ n :=
  Finset.sum_range_succ _ n

/-- The value of n digits rests on the low n bits of the lane. -/
theorem digitValue_congr {n : Nat} (h : x.toNat % 2 ^ n = y.toNat % 2 ^ n) : digitValue n s x = digitValue n s y := by
  refine Finset.sum_congr rfl fun t ht => ?_
  have hbit := congrArg (fun k => k.testBit t) h
  simp only [Nat.testBit_mod_two_pow, Finset.mem_range.1 ht, decide_true, Bool.true_and] at hbit
  rw [digit, digit, BitVec.getLsbD, BitVec.getLsbD, hbit]

theorem digitValue_bounds (n : Nat) : -(2 ^ n : Int) < digitValue n s x ∧ digitValue n s x < 2 ^ n := by
  induction n with
  | zero => simp [digitValue]
  | succ n ih =>
    obtain ⟨hlow, hhigh⟩ := ih
    rw [digitValue_succ, digit, digitSign, pow_succ]
    split_ifs <;> constructor <;> linarith

/-- The loop's invariant: what the digits passed so far are worth and what the lane still holds above them add up to
the subscalar, modulo 2^128. -/
theorem digitValue_recodeLane_invariant {n : Nat} (hn : n ≤ 128) :
    digitValue n s (recodeLane n (~~~s) v) + (recodeLane n (~~~s) v).toNat ≡
      v.toNat + ((recodeLane n (~~~s) v).toNat % 2 ^ n : Nat) [ZMOD 2 ^ 128] := by
  induction n with
  | zero => simp [recodeLane, digitValue, Nat.mod_one, Int.ModEq.refl]
  | succ n ih =>
    have hn' : n < 128 := hn
    replace ih := ih hn'.le
    rw [recodeLane_succ]
    generalize recodeLane n (~~~s) v = x at ih ⊢
    have hlow := recodeBit_toNat_mod s x hn'
    have hstep : ((recodeBit (~~~s) n x).toNat : Int) ≡
        x.toNat + 2 ^ (n + 1) * (x.getLsbD n && !s.getLsbD n).toNat [ZMOD 2 ^ 128] := by
      rw [recodeBit_toNat s x hn']
      push_cast
      exact Int.mod_modEq _ _
    have hdigit : digit s x n * 2 ^ n + 2 ^ (n + 1) * ((x.getLsbD n && !s.getLsbD n).toNat : Int) =
        2 ^ n * (x.getLsbD n).toNat := by
      rw [digit, digitSign, pow_succ]
      cases x.getLsbD n <;> cases s.getLsbD n <;> simp
      ring
    rw [digitValue_congr s _ x hlow, hlow, digitValue_succ, toNat_mod_two_pow_succ]
    calc digitValue n s x + digit s x n * 2 ^ n + ((recodeBit (~~~s) n x).toNat : Int)
        ≡ digitValue n s x + digit s x n * 2 ^ n +
            (x.toNat + 2 ^ (n + 1) * (x.getLsbD n && !s.getLsbD n).toNat) [ZMOD 2 ^ 128] := hstep.add_left _
      _ = digitValue n s x + x.toNat + 2 ^ n * (x.getLsbD n).toNat := by rw [← hdigit]; ring
      _ ≡ v.toNat + (x.toNat % 2 ^ n : Nat) + 2 ^ n * (x.getLsbD n).toNat [ZMOD 2 ^ 128] := ih.add_right _
      _ = v.toNat + ((x.toNat % 2 ^ n + 2 ^ n * (x.getLsbD n).toNat : Nat) : Int) := by push_cast; ring

/-- R181 (3), R183 (3): under a sign scalar whose top sign is +1, the lane's digits are worth the subscalar, modulo
2^(m+1). -/
theorem digitValue_recodeLane_modEq {m : Nat} (hm : m < 128) (htop : s.getLsbD m = true) :
    digitValue (m + 1) s (recodeLane m (~~~s) v) ≡ v.toNat [ZMOD 2 ^ (m + 1)] := by
  have hinv := (digitValue_recodeLane_invariant s v hm.le).of_dvd (pow_dvd_pow (2 : Int) hm)
  generalize recodeLane m (~~~s) v = x at hinv ⊢
  have hx : (x.toNat : Int) ≡ ((x.toNat % 2 ^ (m + 1) : Nat) : Int) [ZMOD 2 ^ (m + 1)] := by
    push_cast
    exact (Int.mod_modEq _ _).symm
  have hdigit : digit s x m = (x.getLsbD m).toNat := by
    rw [digit, digitSign, htop]
    cases x.getLsbD m <;> rfl
  rw [toNat_mod_two_pow_succ] at hx
  push_cast at hx hinv
  rw [digitValue_succ, hdigit]
  calc digitValue m s x + (x.getLsbD m).toNat * 2 ^ m
      = digitValue m s x + x.toNat - x.toNat + 2 ^ m * (x.getLsbD m).toNat := by ring
    _ ≡ v.toNat + x.toNat % 2 ^ m - (x.toNat % 2 ^ m + 2 ^ m * (x.getLsbD m).toNat) +
          2 ^ m * (x.getLsbD m).toNat [ZMOD 2 ^ (m + 1)] := (hinv.sub hx).add_right _
    _ = v.toNat := by ring

/-- R181 (4), R183 (3): a subscalar below 2^m is recoded exactly. -/
theorem digitValue_recodeLane_eq {m : Nat} (hm : m < 128) (htop : s.getLsbD m = true) (hv : v.toNat < 2 ^ m) :
    digitValue (m + 1) s (recodeLane m (~~~s) v) = v.toNat := by
  have hmod := digitValue_recodeLane_modEq s v hm htop
  have hdigit : 0 ≤ digit s (recodeLane m (~~~s) v) m * 2 ^ m := by
    rw [digit, digitSign, htop]
    cases (recodeLane m (~~~s) v).getLsbD m <;> simp
  obtain ⟨hlow, -⟩ := digitValue_bounds s (recodeLane m (~~~s) v) m
  obtain ⟨-, hhigh⟩ := digitValue_bounds s (recodeLane m (~~~s) v) (m + 1)
  have hv' : (v.toNat : Int) < 2 ^ m := by exact_mod_cast hv
  have habs : |(v.toNat : Int) - digitValue (m + 1) s (recodeLane m (~~~s) v)| < 2 ^ (m + 1) := by
    rw [digitValue_succ, pow_succ] at *
    rw [abs_lt]
    constructor <;> linarith [v.toNat.cast_nonneg (α := Int)]
  exact (sub_eq_zero.1 (Int.eq_zero_of_abs_lt_dvd hmod.dvd habs)).symm

end Lane

end Sys2Proof.Machine

/-! SUPPORT. The commands MUL and SIMUL are made of, beside the table, the recoding and the ladder: the bases, and the
end both share (R164, R227 to R229). -/

namespace Sys2Proof.Machine

section Bases

variable {Ext E : Type} [AddCommGroup E] {c : Params Ext} {g : CurveGroup Ext E} {b : Block Ext} {v w : E}

theorem performDecomp_ka_eq {f0 f1 : Bool} {v0 v1 : U128} (hd : c.decompose b.ka = (f0, v0, f1, v1)) :
    performDecomp c .ka b =
      some ({ b with u0 := v0, u1 := v1, sgn := { b.sgn with sg0 := f0, sg1 := f1 } }.emit (.decomp .ka)) := by
  simp [performDecomp, Block.scalar, hd]

theorem performDecomp_kb_eq {f0 f1 : Bool} {v0 v1 : U128} (hd : c.decompose b.kb = (f0, v0, f1, v1)) :
    performDecomp c .kb b =
      some ({ b with u2 := v0, u3 := v1, sgn := { b.sgn with sg2 := f0, sg3 := f1 } }.emit (.decomp .kb)) := by
  simp [performDecomp, Block.scalar, hd]

/-- BASE: the source q (its image where PHI = 1), under its sign f. -/
theorem performBase_holds (hpt : PropPt c g) (e : BitVec 2) (phi : Bool) (src : BitVec 2) {q : Aff} {f : Bool}
    (hq : (if phi then c.morph (b.affineSource c src) else b.affineSource c src) = q) (hQ : g.onCurve q)
    (hf : sign b.sgn e = f) :
    ∃ b', performBase c e phi src b = some b' ∧ Keeps [baseReg e] b b' ∧
      b'.Holds g (baseReg e) (signed f (g.valAff q)) := by
  subst hq hf
  have hreg : baseReg e < 14 := by
    unfold baseReg
    omega
  refine ⟨_, rfl, ?_, holds_putPoint hreg _ ((represents_expand hpt hQ).condNeg hpt _)⟩
  cases phi <;> simp

end Bases

section Tail

variable {Ext E : Type} [AddCommGroup E] {c : Params Ext} {g : CurveGroup Ext E} {b : Block Ext} {v w : E}

theorem performCorrect_holds (hadd : PropAdd c g) (hx : b.Holds g 12 v) (h0 : b.Holds g 8 w)
    (hok : CorrectAddOk c b.sgn.lsb v w) :
    ∃ b', performCorrect c b = some b' ∧ b'.Holds g 12 (v + b.sgn.lsb.toNat • w) := by
  obtain ⟨x, hx, hrx⟩ := hx
  obtain ⟨e0, he0, hr0⟩ := h0
  simp only [performCorrect, hx, he0, Option.bind_eq_bind, Option.bind_some]
  exact ⟨_, rfl, holds_putPoint (by decide) _ (hrx.condAdd hr0 hadd hok)⟩

theorem performCofactor_holds (hpt : PropPt c g) (hx : b.Holds g 12 v) :
    ∃ b', performCofactor c b = some b' ∧ b'.Holds g 12 (4 • v) := by
  obtain ⟨x, hx, hr⟩ := hx
  simp only [performCofactor, hx, Option.bind_eq_bind, Option.bind_some]
  have hr4 := (hr.dbl hpt).dbl hpt
  rw [← mul_smul] at hr4
  exact ⟨_, rfl, holds_putPoint (by decide) _ hr4⟩

theorem performAffine_value (hpt : PropPt c g) {n : Nat} (hx : b.Holds g n v) :
    ∃ b', performAffine c n b = some b' ∧ g.onCurve ⟨b'.rx, b'.ry⟩ ∧ g.valAff ⟨b'.rx, b'.ry⟩ = v := by
  obtain ⟨x, hx, hr⟩ := hx
  simp only [performAffine, hx, Option.bind_eq_bind, Option.bind_some]
  exact ⟨_, rfl, hr.affine hpt⟩

/-- The end of MUL, MUL_GEN and SIMUL: four times the corrected X goes to (RX, RY). -/
theorem performTail_value (hpt : PropPt c g) (hadd : PropAdd c g) (hx : b.Holds g 12 v) (h0 : b.Holds g 8 w)
    (hok : CorrectAddOk c b.sgn.lsb v w) :
    ∃ b', (do
        let b ← performCorrect c b
        let b ← performCofactor c b
        let b ← performAffine c 12 b
        performScrub b) = some b' ∧
      g.onCurve ⟨b'.rx, b'.ry⟩ ∧ g.valAff ⟨b'.rx, b'.ry⟩ = 4 • (v + b.sgn.lsb.toNat • w) := by
  obtain ⟨b1, hrun1, hx1⟩ := performCorrect_holds hadd hx h0 hok
  obtain ⟨b2, hrun2, hx2⟩ := performCofactor_holds hpt hx1
  obtain ⟨b3, hrun3, haff⟩ := performAffine_value hpt hx2
  simp only [hrun1, hrun2, hrun3, Option.bind_eq_bind, Option.bind_some]
  exact ⟨_, rfl, haff⟩

end Tail

end Sys2Proof.Machine

/-! SUPPORT. The values of MUL's and SIMUL's results (R263 to R266). -/

namespace Sys2Proof.Machine

section Result

variable {Ext E : Type} [AddCommGroup E] {c : Params Ext} {g : CurveGroup Ext E}

/-- The ladder's sum on recoded subscalars, corrected (R231 with R181). -/
theorem dualSum_corrected (a v : U128) (A B : E) :
    dualSum (recodeSign 127 a) (recode2Lane a v) A B 0 + (recodeLsb a).toNat • A =
      ((a - 1#128).toNat + 1) • A + digitValue 128 (recodeSign 127 a) (recode2Lane a v) • B := by
  have h := signValue_recodeSign (m := 127) (by decide) a
  rw [Nat.mod_eq_of_lt (a - 1#128).isLt] at h
  rw [dualSum_zero, ← natCast_zsmul A, ← natCast_zsmul A, ← h, add_zsmul]
  abel

/-- The ladder's sum on recoded subscalars, corrected (R231 with R183). -/
theorem quadSum_corrected (a v1 v2 v3 : U128) (A B C D : E) :
    quadSum (recodeSign 126 a) (recode4Lane a v1) (recode4Lane a v2) (recode4Lane a v3) A B C D 0 +
        (recodeLsb a).toNat • A =
      ((a - 1#128).toNat % 2 ^ 127 + 1) • A + digitValue 127 (recodeSign 126 a) (recode4Lane a v1) • B +
        digitValue 127 (recodeSign 126 a) (recode4Lane a v2) • C +
        digitValue 127 (recodeSign 126 a) (recode4Lane a v3) • D := by
  have h := signValue_recodeSign (m := 126) (by decide) a
  rw [quadSum_zero, ← natCast_zsmul A, ← natCast_zsmul A, ← h, add_zsmul]
  abel

/-- MUL from RECODE2 on: on a right table with E0 in its register, four times the corrected ladder's sum. -/
theorem performMul_ladder_value {b : Block Ext} {E0 E1 : E} (hpt : PropPt c g) (hadd : PropAdd c g)
    (ht : b.HoldsTable g (dualEntry E0 E1)) (h8 : b.Holds g 8 E0)
    (hok : DualLadderAddsOk c (recodeSign 127 b.u0) (recode2Lane b.u0 b.u1) E0 E1)
    (hcorrect : CorrectAddOk c (recodeLsb b.u0) (dualSum (recodeSign 127 b.u0) (recode2Lane b.u0 b.u1) E0 E1 0) E0) :
    ∃ b', (do
        let b ← performRecode2 b
        let b ← performLadder2 c b
        let b ← performCorrect c b
        let b ← performCofactor c b
        let b ← performAffine c 12 b
        performScrub b) = some b' ∧
      g.onCurve ⟨b'.rx, b'.ry⟩ ∧
      g.valAff ⟨b'.rx, b'.ry⟩ = 4 • (((b.u0 - 1#128).toNat + 1) • E0 +
        digitValue 128 (recodeSign 127 b.u0) (recode2Lane b.u0 b.u1) • E1) := by
  rw [← dualSum_corrected]
  have hrun1 := performRecode2_eq b
  obtain ⟨b2, hrun2, hkeep, hx⟩ := performLadder2_holds (b := { b with
      u0 := recodeSign 127 b.u0, u1 := recode2Lane b.u0 b.u1, sgn := { b.sgn with lsb := recodeLsb b.u0 },
      trace := b.trace ++ recodeTrace 2 127 }) hpt hadd ht hok
  have hlsb : b2.sgn.lsb = recodeLsb b.u0 := congrArg Sgn.lsb hkeep.sgn
  rw [← hlsb] at hcorrect ⊢
  obtain ⟨b', hrun, hvalue⟩ := performTail_value hpt hadd hx (hkeep.holds (by decide) h8) hcorrect
  exact ⟨b', bind_eq_some_of hrun1 (bind_eq_some_of hrun2 hrun), hvalue⟩

/-- SIMUL from RECODE4 on, likewise on the quad table. -/
theorem performSimul_ladder_value {b : Block Ext} {E0 E1 E2 E3 : E} (hpt : PropPt c g) (hadd : PropAdd c g)
    (ht : b.HoldsTable g (quadEntry E0 E1 E2 E3)) (h8 : b.Holds g 8 E0)
    (hok : QuadLadderAddsOk c (recodeSign 126 b.u0) (recode4Lane b.u0 b.u1) (recode4Lane b.u0 b.u2)
      (recode4Lane b.u0 b.u3) E0 E1 E2 E3)
    (hcorrect : CorrectAddOk c (recodeLsb b.u0) (quadSum (recodeSign 126 b.u0) (recode4Lane b.u0 b.u1)
      (recode4Lane b.u0 b.u2) (recode4Lane b.u0 b.u3) E0 E1 E2 E3 0) E0) :
    ∃ b', (do
        let b ← performRecode4 b
        let b ← performLadder4 c b
        let b ← performCorrect c b
        let b ← performCofactor c b
        let b ← performAffine c 12 b
        performScrub b) = some b' ∧
      g.onCurve ⟨b'.rx, b'.ry⟩ ∧
      g.valAff ⟨b'.rx, b'.ry⟩ = 4 • (((b.u0 - 1#128).toNat % 2 ^ 127 + 1) • E0 +
        digitValue 127 (recodeSign 126 b.u0) (recode4Lane b.u0 b.u1) • E1 +
        digitValue 127 (recodeSign 126 b.u0) (recode4Lane b.u0 b.u2) • E2 +
        digitValue 127 (recodeSign 126 b.u0) (recode4Lane b.u0 b.u3) • E3) := by
  rw [← quadSum_corrected]
  have hrun1 := performRecode4_eq b
  obtain ⟨b2, hrun2, hkeep, hx⟩ := performLadder4_holds (b := { b with
      u0 := recodeSign 126 b.u0, u1 := recode4Lane b.u0 b.u1, u2 := recode4Lane b.u0 b.u2,
      u3 := recode4Lane b.u0 b.u3, sgn := { b.sgn with lsb := recodeLsb b.u0 },
      trace := b.trace ++ recodeTrace 4 126 }) hpt hadd ht hok
  have hlsb : b2.sgn.lsb = recodeLsb b.u0 := congrArg Sgn.lsb hkeep.sgn
  rw [← hlsb] at hcorrect ⊢
  obtain ⟨b', hrun, hvalue⟩ := performTail_value hpt hadd hx (hkeep.holds (by decide) h8) hcorrect
  exact ⟨b', bind_eq_some_of hrun1 (bind_eq_some_of hrun2 hrun), hvalue⟩

/-- R263's value: the signed bases E0 and E1, their table, and the ladder on the recoded subscalars. -/
theorem performMul_value {b : Block Ext} (hpt : PropPt c g) (hadd : PropAdd c g) (hmorph : PropMorph c g)
    (hP : g.onCurve ⟨b.px, b.py⟩) {f0 f1 : Bool} {v0 v1 : U128} (hd : c.decompose b.ka = (f0, v0, f1, v1))
    {E0 E1 : E} (hE0 : signed f0 (g.valAff ⟨b.px, b.py⟩) = E0) (hE1 : signed f1 (g.valAff (c.morph ⟨b.px, b.py⟩)) = E1)
    (hok : MulAddsOk c v0 v1 E0 E1) :
    ∃ b', performMul c b = some b' ∧ g.onCurve ⟨b'.rx, b'.ry⟩ ∧
      g.valAff ⟨b'.rx, b'.ry⟩ =
        4 • (((v0 - 1#128).toNat + 1) • E0 + digitValue 128 (recodeSign 127 v0) (recode2Lane v0 v1) • E1) := by
  subst hE0 hE1
  obtain ⟨hokTable, hokLadder, hokCorrect⟩ := hok
  obtain ⟨hφ, -⟩ := hmorph _ hP
  obtain ⟨b1, hrun1, hu0, hu1, hsg0, hsg1, hp⟩ : ∃ b1, performDecomp c .ka b = some b1 ∧ b1.u0 = v0 ∧ b1.u1 = v1 ∧
      sign b1.sgn 0 = f0 ∧ sign b1.sgn 1 = f1 ∧ b1.affineSource c 0 = ⟨b.px, b.py⟩ :=
    ⟨_, performDecomp_ka_eq hd, rfl, rfl, rfl, rfl, rfl⟩
  obtain ⟨b2, hrun2, hkeep2, h8⟩ := performBase_holds (b := b1) hpt 0 false 0 hp hP hsg0
  obtain ⟨b3, hrun3, hkeep3, h9⟩ := performBase_holds (b := b2) hpt 1 true 0
    (congrArg c.morph ((hkeep2.affineSource 0).trans hp)) hφ (by rw [hkeep2.sgn, hsg1])
  replace h8 := hkeep3.holds (by decide) h8
  obtain ⟨b4, hrun4, hkeep4, ht⟩ := performGent2_holds hpt hadd h8 h9 hokTable
  replace h8 := hkeep4.holds (by decide) h8
  have hkeep := hkeep2.trans (hkeep3.trans hkeep4)
  rw [← hkeep.u0.trans hu0, ← hkeep.u1.trans hu1] at hokLadder hokCorrect ⊢
  obtain ⟨b', hrun, hvalue⟩ := performMul_ladder_value hpt hadd ht h8 hokLadder hokCorrect
  refine ⟨b', ?_, hvalue⟩
  rw [performMul, performMulOn]
  exact bind_eq_some_of hrun1 (bind_eq_some_of hrun2 (bind_eq_some_of hrun3 (bind_eq_some_of hrun4 hrun)))

/-- R265's value: as MUL's, from four signed bases. -/
theorem performSimul_value {b : Block Ext} (hpt : PropPt c g) (hadd : PropAdd c g) (hmorph : PropMorph c g)
    (hP : g.onCurve ⟨b.px, b.py⟩) (hQ : g.onCurve ⟨b.qx, b.qy⟩) {f0 f1 f2 f3 : Bool} {v0 v1 v2 v3 : U128}
    (hd : c.decompose b.ka = (f0, v0, f1, v1)) (hd' : c.decompose b.kb = (f2, v2, f3, v3)) {E0 E1 E2 E3 : E}
    (hE0 : signed f0 (g.valAff ⟨b.px, b.py⟩) = E0) (hE1 : signed f1 (g.valAff (c.morph ⟨b.px, b.py⟩)) = E1)
    (hE2 : signed f2 (g.valAff ⟨b.qx, b.qy⟩) = E2) (hE3 : signed f3 (g.valAff (c.morph ⟨b.qx, b.qy⟩)) = E3)
    (hok : SimulAddsOk c v0 v1 v2 v3 E0 E1 E2 E3) :
    ∃ b', performSimul c b = some b' ∧ g.onCurve ⟨b'.rx, b'.ry⟩ ∧
      g.valAff ⟨b'.rx, b'.ry⟩ = 4 • (((v0 - 1#128).toNat % 2 ^ 127 + 1) • E0 +
        digitValue 127 (recodeSign 126 v0) (recode4Lane v0 v1) • E1 +
        digitValue 127 (recodeSign 126 v0) (recode4Lane v0 v2) • E2 +
        digitValue 127 (recodeSign 126 v0) (recode4Lane v0 v3) • E3) := by
  subst hE0 hE1 hE2 hE3
  obtain ⟨hokTable, hokLadder, hokCorrect⟩ := hok
  obtain ⟨hφP, -⟩ := hmorph _ hP
  obtain ⟨hφQ, -⟩ := hmorph _ hQ
  obtain ⟨b1, b2, hrun1, hrun2, hu0, hu1, hu2, hu3, hsg0, hsg1, hsg2, hsg3, hp, hq⟩ : ∃ b1 b2,
      performDecomp c .ka b = some b1 ∧ performDecomp c .kb b1 = some b2 ∧
      b2.u0 = v0 ∧ b2.u1 = v1 ∧ b2.u2 = v2 ∧ b2.u3 = v3 ∧
      sign b2.sgn 0 = f0 ∧ sign b2.sgn 1 = f1 ∧ sign b2.sgn 2 = f2 ∧ sign b2.sgn 3 = f3 ∧
      b2.affineSource c 0 = ⟨b.px, b.py⟩ ∧ b2.affineSource c 1 = ⟨b.qx, b.qy⟩ :=
    ⟨_, _, performDecomp_ka_eq hd, performDecomp_kb_eq hd', rfl, rfl, rfl, rfl, rfl, rfl, rfl, rfl, rfl, rfl⟩
  obtain ⟨b3, hrun3, hkeep3, h8⟩ := performBase_holds (b := b2) hpt 0 false 0 hp hP hsg0
  obtain ⟨b4, hrun4, hkeep4, h9⟩ := performBase_holds (b := b3) hpt 1 true 0
    (congrArg c.morph ((hkeep3.affineSource 0).trans hp)) hφP (by rw [hkeep3.sgn, hsg1])
  have hkeep := hkeep3.trans hkeep4
  obtain ⟨b5, hrun5, hkeep5, h10⟩ := performBase_holds (b := b4) hpt 2 false 1
    ((hkeep.affineSource 1).trans hq) hQ (by rw [hkeep.sgn, hsg2])
  replace hkeep := hkeep.trans hkeep5
  obtain ⟨b6, hrun6, hkeep6, h11⟩ := performBase_holds (b := b5) hpt 3 true 1
    (congrArg c.morph ((hkeep.affineSource 1).trans hq)) hφQ (by rw [hkeep.sgn, hsg3])
  replace h8 := (hkeep4.trans (hkeep5.trans hkeep6)).holds (by decide) h8
  replace h9 := (hkeep5.trans hkeep6).holds (by decide) h9
  replace h10 := hkeep6.holds (by decide) h10
  obtain ⟨b7, hrun7, hkeep7, ht⟩ := performGent4_holds hadd h8 h9 h10 h11 hokTable
  replace h8 := hkeep7.holds (by decide) h8
  replace hkeep := hkeep.trans (hkeep6.trans hkeep7)
  rw [← hkeep.u0.trans hu0, ← hkeep.u1.trans hu1, ← hkeep.u2.trans hu2, ← hkeep.u3.trans hu3] at hokLadder hokCorrect ⊢
  obtain ⟨b', hrun, hvalue⟩ := performSimul_ladder_value hpt hadd ht h8 hokLadder hokCorrect
  refine ⟨b', ?_, hvalue⟩
  rw [performSimul]
  exact bind_eq_some_of hrun1 (bind_eq_some_of hrun2 (bind_eq_some_of hrun3 (bind_eq_some_of hrun4
    (bind_eq_some_of hrun5 (bind_eq_some_of hrun6 (bind_eq_some_of hrun7 hrun))))))

end Result

end Sys2Proof.Machine

/-! CERTIFICATE. MUL and SIMUL as group operations (R263 to R266): PROP-DECOMP turns the value of the decomposed
subscalars into the scalar's. -/

namespace Sys2Proof.Machine

/-- A decomposed subscalar a is at least 1, so a - 1 does not wrap, and both are below 2^126 (R32). -/
theorem decomposed_bounds {Ext E : Type} {c : Params Ext} {g : CurveGroup Ext E} (hdecomp : PropDecomp c) {k : U256}
    {p : Aff} (hin : PropInput c g k p) {f0 f1 : Bool} {v0 v1 : U128} (hd : c.decompose k = (f0, v0, f1, v1)) :
    v0.toNat < 2 ^ 126 ∧ v1.toNat < 2 ^ 126 ∧ (v0 - 1#128).toNat + 1 = v0.toNat := by
  obtain ⟨hpos, hlt, -⟩ := hin
  obtain ⟨hbound, -, hone⟩ := hdecomp k hpos hlt
  simp only [hd] at hbound hone
  obtain ⟨h0, h1⟩ := hbound
  refine ⟨h0, h1, ?_⟩
  rw [BitVec.toNat_sub, BitVec.toNat_ofNat]
  omega

section Decomposition

variable {Ext E : Type} [AddCommGroup E] {c : Params Ext} {g : CurveGroup Ext E}

theorem zsmul_signed (f : Bool) (n : Int) (x : E) : n • signed f x = signed f n • x := by
  cases f <;> simp [signed]

/-- Four times a multiple of a point depends on the factor modulo q only, since E has order 4·q (R28). -/
theorem four_zsmul_eq_of_modEq (hgroup : PropGroup c E) {m n : Int} (h : m ≡ n [ZMOD c.q]) (P : E) :
    4 • m • P = 4 • n • P := by
  obtain ⟨-, hcard, -⟩ := hgroup
  obtain ⟨k, hk⟩ := h.dvd
  have horder : (4 * c.q) • P = 0 := hcard ▸ card_nsmul_eq_zero'
  have hn : n = m + c.q * k := by linarith
  have hzero : 4 • ((c.q : Int) * k) • P = 0 := by
    calc 4 • ((c.q : Int) * k) • P = k • (4 * c.q) • P := by
          rw [← natCast_zsmul, ← natCast_zsmul, ← mul_smul, ← mul_smul]
          congr 1
          push_cast
          ring
      _ = 0 := by rw [horder, smul_zero]
  rw [hn, add_smul, smul_add, hzero, add_zero]

/-- PROP-DECOMP, PROP-MORPH and PROP-GROUP together: four times the decomposed sum is 4·k·P (R264, R266). -/
theorem four_smul_decomposed (hgroup : PropGroup c E) (hmorph : PropMorph c g) (hdecomp : PropDecomp c) {k : U256}
    {p : Aff} (hin : PropInput c g k p) {f0 f1 : Bool} {v0 v1 : U128} (hd : c.decompose k = (f0, v0, f1, v1)) :
    4 • (v0.toNat • signed f0 (g.valAff p) + (v1.toNat : Int) • signed f1 (g.valAff (c.morph p))) =
      4 • intOf k • g.valAff p := by
  obtain ⟨hpos, hlt, hp⟩ := hin
  obtain ⟨-, hφ⟩ := hmorph p hp
  obtain ⟨-, hmod, -⟩ := hdecomp k hpos hlt
  simp only [hd] at hmod
  have hsum : v0.toNat • signed f0 (g.valAff p) + (v1.toNat : Int) • signed f1 (g.valAff (c.morph p)) =
      (signed f0 (v0.toNat : Int) + signed f1 ((c.eigenvalue * v1.toNat : Nat) : Int)) • g.valAff p := by
    rw [hφ, ← natCast_zsmul, zsmul_signed, zsmul_signed, add_smul, ← natCast_zsmul, ← mul_smul]
    congr 2
    cases f1 <;> simp [signed, mul_comm]
  rw [hsum, ← four_zsmul_eq_of_modEq hgroup hmod, natCast_zsmul]

end Decomposition

/-- Settles O40: the bases, their table, the recoded ladder and the correction, then what the recoding is worth. -/
theorem mulGroupValue : Obligations.MulGroupValue := by
  intro Ext E _ c g b hpt hadd hmorph hP
  rcases hd : c.decompose b.ka with ⟨f0, v0, f1, v1⟩
  intro _ _ _ hok
  obtain ⟨b', hrun, -, hvalue⟩ := performMul_value (b := b.clearTrace) hpt hadd hmorph hP hd rfl rfl hok
  have htop := getLsbD_recodeSign_top (m := 127) (by decide) v0
  rw [execute_ok (i := .mul) rfl rfl hrun]
  exact ⟨rfl, hvalue, digitValue_recodeLane_modEq _ _ (by decide) htop, digitValue_recodeLane_eq _ _ (by decide) htop⟩

/-- Settles O41: within PROP-DECOMP's bounds the recoding is exact, and the decomposed sum is k·P modulo q. -/
theorem mulComputes4kP : Obligations.MulComputes4kP := by
  intro Ext E _ c g b hgroup hpt hadd hmorph hdecomp hin hok
  obtain ⟨-, -, hP⟩ := id hin
  rcases hd : c.decompose b.ka with ⟨f0, v0, f1, v1⟩
  rw [hd] at hok
  obtain ⟨b', hrun, hcurve, hvalue⟩ := performMul_value (b := b.clearTrace) hpt hadd hmorph hP hd rfl rfl hok
  obtain ⟨-, h1, hv0⟩ := decomposed_bounds hdecomp hin hd
  have htop := getLsbD_recodeSign_top (m := 127) (by decide) v0
  have hv1 : digitValue 128 (recodeSign 127 v0) (recode2Lane v0 v1) = v1.toNat :=
    digitValue_recodeLane_eq _ _ (by decide) htop (by omega)
  rw [hv0, hv1] at hvalue
  rw [execute_ok (i := .mul) rfl rfl hrun]
  rw [mul_smul, ← four_smul_decomposed hgroup hmorph hdecomp hin hd]
  exact ⟨rfl, hcurve, hvalue⟩

/-- Settles O43: as for MUL, with the quad table and RECODE4's three lanes. -/
theorem simulGroupValue : Obligations.SimulGroupValue := by
  intro Ext E _ c g b hpt hadd hmorph hP hQ
  rcases hd : c.decompose b.ka with ⟨f0, v0, f1, v1⟩
  rcases hd' : c.decompose b.kb with ⟨f2, v2, f3, v3⟩
  intro _ _ _ _ _ _ hok
  obtain ⟨b', hrun, -, hvalue⟩ := performSimul_value (b := b.clearTrace) hpt hadd hmorph hP hQ hd hd'
    rfl rfl rfl rfl hok
  have htop := getLsbD_recodeSign_top (m := 126) (by decide) v0
  rw [execute_ok (i := .simul) rfl rfl hrun]
  exact ⟨rfl, hvalue, fun v =>
    ⟨digitValue_recodeLane_modEq _ _ (by decide) htop, digitValue_recodeLane_eq _ _ (by decide) htop⟩⟩

/-- Settles O44: the two decomposed sums are 4·a·P and 4·b·Q. -/
theorem simulComputes4aPbQ : Obligations.SimulComputes4aPbQ := by
  intro Ext E _ c g b hgroup hpt hadd hmorph hdecomp hinP hinQ hok
  obtain ⟨-, -, hP⟩ := id hinP
  obtain ⟨-, -, hQ⟩ := id hinQ
  rcases hd : c.decompose b.ka with ⟨f0, v0, f1, v1⟩
  rcases hd' : c.decompose b.kb with ⟨f2, v2, f3, v3⟩
  rw [hd, hd'] at hok
  obtain ⟨b', hrun, hcurve, hvalue⟩ := performSimul_value (b := b.clearTrace) hpt hadd hmorph hP hQ hd hd'
    rfl rfl rfl rfl hok
  obtain ⟨h0, h1, hv0⟩ := decomposed_bounds hdecomp hinP hd
  obtain ⟨h2, h3, -⟩ := decomposed_bounds hdecomp hinQ hd'
  have htop := getLsbD_recodeSign_top (m := 126) (by decide) v0
  have hlane : ∀ v : U128, v.toNat < 2 ^ 126 → digitValue 127 (recodeSign 126 v0) (recode4Lane v0 v) = v.toNat :=
    fun v => digitValue_recodeLane_eq _ _ (by decide) htop
  rw [Nat.mod_eq_of_lt (by omega), hv0, hlane v1 h1, hlane v2 h2, hlane v3 h3, natCast_zsmul _ v2.toNat] at hvalue
  rw [execute_ok (i := .simul) rfl rfl hrun]
  refine ⟨rfl, hcurve, hvalue.trans ?_⟩
  have hsumP := four_smul_decomposed hgroup hmorph hdecomp hinP hd
  have hsumQ := four_smul_decomposed hgroup hmorph hdecomp hinQ hd'
  rw [smul_add 4 (intOf b.ka • _), ← hsumP, ← hsumQ, ← smul_add, add_assoc]
  rfl

end Sys2Proof.Machine

/-! SUPPORT. The status, control and sign words bit by bit (R44, R52, R53), PVALID (R54), and what a register of the
window reads after each update of the block. -/

namespace Sys2Proof.Machine

variable {Ext : Type}

section FlagWords

/-- A word under a one-bit mask is its bit at that place. -/
theorem and_bitAt (w : Word) (i : Nat) : w &&& bitAt true i = bitAt (w.getLsbD i) i := by
  have hmask : bitAt true i = BitVec.twoPow 64 i := BitVec.twoPow_eq 64 i
  rw [hmask, BitVec.and_twoPow]
  cases w.getLsbD i
  · simp [bitAt]
  · exact hmask.symm

/-- R44, R87: SGN keeps its five flags of the word written and reads 0 elsewhere. -/
theorem sgnWord_sgnOfWord (v : Word) : sgnWord (sgnOfWord v) = v &&& 0x10F#64 := by
  have hmask : 0x10F#64 = bitAt true 0 ||| bitAt true 1 ||| bitAt true 2 ||| bitAt true 3 ||| bitAt true 8 := by decide
  rw [hmask]
  simp only [BitVec.and_or_distrib_left, and_bitAt]
  rfl

/-- R52: each of DONE, CERR and WERR is cleared by a 1 and left by a 0. -/
theorem statusWord_statusAfterWrite (t : Status) (v : Word) :
    statusWord (statusAfterWrite t v) = statusWord t &&& ~~~(v &&& 0xE#64) := by
  have hmask : 0xE#64 = bitAt true 1 ||| bitAt true 2 ||| bitAt true 3 := by decide
  rw [hmask]
  simp only [BitVec.and_or_distrib_left, and_bitAt]
  obtain ⟨busy, done, cerr, werr, ecode⟩ := t
  simp only [statusAfterWrite]
  generalize v.getLsbD 1 = clearDone
  generalize v.getLsbD 2 = clearCerr
  generalize v.getLsbD 3 = clearWerr
  revert busy done cerr werr clearDone clearCerr clearWerr
  cases ecode <;> decide

theorem statusWord_reserved (t : Status) : statusWord t &&& ~~~0xFF0F#64 = 0 := by
  obtain ⟨busy, done, cerr, werr, ecode⟩ := t
  revert busy done cerr werr
  cases ecode <;> decide

theorem ctrlWord_reserved (ie : Bool) : ctrlWord ie &&& ~~~1#64 = 0 := by cases ie <;> decide

theorem sgnWord_reserved (g : Sgn) : sgnWord g &&& ~~~0x10F#64 = 0 := by
  obtain ⟨sg0, sg1, sg2, sg3, lsb⟩ := g
  revert sg0 sg1 sg2 sg3 lsb
  decide

/-- R54. -/
theorem getLsbD_pvalid (b : Block Ext) (n : Nat) : b.pvalid.getLsbD n = (decide (n < 16) && b.valid n) := by
  rw [Block.pvalid, BitVec.getLsbD_setWidth, BitVec.getLsbD_ofBoolListLE, List.getD_eq_getElem?_getD, List.getElem?_map]
  by_cases h : n < 16
  · have h64 : n < 64 := by omega
    simp [h, h64]
  · simp [h]

end FlagWords

theorem point_congr {b b' : Block Ext} (h : b'.pr = b.pr) (n : Nat) : b'.point n = b.point n := by
  unfold Block.point
  rw [h]

section ReadReg

variable (b : Block Ext) (r : Reg)

@[simp] theorem readReg_emitAll (evs : List TraceEvent) : readReg (b.emitAll evs) r = readReg b r := by cases r <;> rfl

@[simp] theorem readReg_clearTrace : readReg b.clearTrace r = readReg b r := by cases r <;> rfl

variable {r}

theorem readReg_setPoint (n : Nat) (x : Ext) (hr : r ≠ .pvalid) : readReg (b.setPoint n x) r = readReg b r := by
  cases r with
  | pvalid => exact absurd rfl hr
  | _ => rfl

theorem readReg_finish (code : ECode) (hr : r ≠ .status) : readReg (finish code b) r = readReg b r := by
  cases r with
  | status => exact absurd rfl hr
  | _ => rfl

theorem readReg_fail (code : ECode) (hr : r ≠ .status) : readReg (fail code b) r = readReg b r := by
  rw [fail, readReg_finish _ _ hr, readReg_clearTrace]

end ReadReg

section StoreOperand

variable (b : Block Ext)

theorem setSub_eq (e : Fin 4) (v : U128) :
    b.setSub e v = { b with
      u0 := if e = 0 then v else b.u0, u1 := if e = 1 then v else b.u1,
      u2 := if e = 2 then v else b.u2, u3 := if e = 3 then v else b.u3 } := by
  fin_cases e <;> rfl

theorem sub_setSub (e e' : Fin 4) (v : U128) : (b.setSub e v).sub e' = if e' = e then v else b.sub e' := by
  rw [setSub_eq]
  fin_cases e' <;> simp only [Block.sub, eq_comm] <;> rfl

/-- R88: an operand write has no effect beyond storing the value. -/
theorem storeOperand_keeps (r : Reg) (v : Word) :
    (storeOperand b r v).cmd = b.cmd ∧ (storeOperand b r v).status = b.status ∧ (storeOperand b r v).ie = b.ie ∧
      (storeOperand b r v).pending = b.pending ∧ (storeOperand b r v).trace = b.trace ∧
      (storeOperand b r v).pr = b.pr := by
  cases r with
  | uLo e | uHi e =>
    rw [storeOperand, setSub_eq]
    exact ⟨rfl, rfl, rfl, rfl, rfl, rfl⟩
  | _ => exact ⟨rfl, rfl, rfl, rfl, rfl, rfl⟩

/-- R89: an operand register reads back the word stored; SGN has five bits of it. -/
theorem readReg_storeOperand_same {r : Reg} (hr : isOperand r = true) (v : Word) :
    readReg (storeOperand b r v) r = if r = .sgn then v &&& 0x10F#64 else v := by
  cases r with
  | sgn => exact sgnWord_sgnOfWord v
  | uLo e | uHi e =>
    simp only [readReg, storeOperand, sub_setSub, if_true, reduceCtorEq, if_false]
    exact limb_setLimb_same _ _ v (by decide)
  | ka j | kb j | px j | py j | qx j | qy j => exact limb_setLimb_same _ _ v (by omega)
  | cmd | status | ctrl | pvalid | rx | ry | reserved => exact absurd hr Bool.false_ne_true

theorem limb_sub_setSub_ne {e k : Fin 4} {j i : Nat} (v : Word) (hi : 64 * i + 64 ≤ 128) (h : k ≠ e ∨ i ≠ j) :
    limb ((b.setSub e (setLimb (b.sub e) j v)).sub k) i = limb (b.sub k) i := by
  rw [sub_setSub]
  split
  · next hke =>
    subst hke
    exact limb_setLimb_ne _ v hi (h.resolve_left (not_not_intro rfl))
  · rfl

/-- An operand write leaves every other register (R88, R89). -/
theorem readReg_storeOperand_ne {r r' : Reg} (h : r' ≠ r) (v : Word) :
    readReg (storeOperand b r v) r' = readReg b r' := by
  cases r with
  | ka j | kb j | px j | py j | qx j | qy j =>
    cases r' <;> try rfl
    exact limb_setLimb_ne _ v (by omega) fun hkj => h (Fin.ext hkj ▸ rfl)
  | uLo e =>
    cases r' with
    | uLo k => exact limb_sub_setSub_ne b v (by decide) (.inl fun hke => h (hke ▸ rfl))
    | uHi k => exact limb_sub_setSub_ne b v (by decide) (.inr (by decide))
    | _ => rw [storeOperand, setSub_eq]; rfl
  | uHi e =>
    cases r' with
    | uLo k => exact limb_sub_setSub_ne b v (by decide) (.inr (by decide))
    | uHi k => exact limb_sub_setSub_ne b v (by decide) (.inl fun hke => h (hke ▸ rfl))
    | _ => rw [storeOperand, setSub_eq]; rfl
  | sgn =>
    cases r' with
    | sgn => exact absurd rfl h
    | _ => rfl
  | cmd | status | ctrl | pvalid | rx | ry | reserved => rfl

/-- R88, R90: an operand write is stored while idle and dropped while busy. -/
theorem writeReg_operand {r : Reg} (hr : isOperand r = true) (v : Word) :
    writeReg b r v = if b.status.busy then rejectOperand b else storeOperand b r v := by
  cases r with
  | ka | kb | uLo | uHi | sgn | px | py | qx | qy => rfl
  | cmd | status | ctrl | pvalid | rx | ry | reserved => exact absurd hr Bool.false_ne_true

end StoreOperand

end Sys2Proof.Machine

/-! CERTIFICATE. The state after reset, the window's STATUS, CTRL, SGN and PVALID, and operand writes (R48, R52 to R54,
R63, R87 to R89). -/

namespace Sys2Proof.Machine

theorem reset_point (n : Nat) : State.reset.point n = none := dropPoints_point Block.reset n

theorem reset_valid (n : Nat) : State.reset.valid n = false := dropPoints_valid Block.reset n

theorem readReg_reset (r : Reg) : readReg State.reset.toBlock r = 0 := by
  cases r with
  | ka j | kb j | uLo j | uHi j | px j | py j | qx j | qy j | rx j | ry j => revert j; decide
  | cmd | status | ctrl | pvalid | sgn | reserved => decide

/-- Settles O45, register by register. -/
theorem resetState : Obligations.ResetState := ⟨readReg_reset, reset_point, rfl, rfl⟩

/-- Settles O46: nothing is pending and no point register holds a value. -/
theorem resetMeetsInvariant : Obligations.ResetMeetsInvariant := by
  refine ⟨⟨rfl, fun hbusy => absurd hbusy Bool.false_ne_true⟩, ?_⟩
  simp [PointInv, reset_valid]

/-- Settles O60. -/
theorem pvalidShowsPv : Obligations.PvalidShowsPv := fun _ b n =>
  ⟨getLsbD_pvalid b n, valid_reserved b (by decide), valid_reserved b (by decide)⟩

/-- Settles O59, from the words of the flags. -/
theorem statusAndCtrlWrites : Obligations.StatusAndCtrlWrites := by
  intro s v
  refine ⟨⟨_, rfl, statusWord_statusAfterWrite s.status v, rfl⟩, ⟨_, rfl, ?_, rfl⟩, statusWord_reserved s.status,
    ctrlWord_reserved s.ie, sgnWord_reserved s.sgn⟩
  exact (and_bitAt v 0).symm

/-- R85: an aligned write of eight bytes reaches its register. -/
theorem hostWrite_aligned {off : BitVec 12} (ha : off.toNat % 8 = 0) (v : Word) (s : State) :
    hostWrite off 8 v s = .next { s with toBlock := writeReg s.toBlock (regAt off) v, response := none } := by
  simp [hostWrite, admitted, ha]

/-- Settles O56: the write is stored, and storing touches the register written only. -/
theorem idleOperandWriteStores : Obligations.IdleOperandWriteStores := by
  intro s off v ha hop hidle
  refine ⟨_, hostWrite_aligned ha v s, ?_⟩
  rw [writeReg_operand s.toBlock hop v, hidle]
  refine ⟨readReg_storeOperand_same s.toBlock hop v, fun r hr => readReg_storeOperand_ne s.toBlock hr v, ?_⟩
  obtain ⟨-, -, -, hpending, htrace, hpr⟩ := storeOperand_keeps s.toBlock (regAt off) v
  exact ⟨point_congr hpr, hpending, htrace⟩

/-- A command turned away changes STATUS and the trace only (R143). -/
theorem frameExcept_fail (code : ECode) (s : State) :
    FrameExcept [.status] [] s { s with toBlock := fail code s.toBlock } :=
  ⟨fun _ hr => readReg_fail s.toBlock code (List.ne_of_not_mem_cons hr), fun _ _ => rfl, rfl, rfl, rfl⟩

/-- Settles O12: the missing point turns the command away before its rule runs. -/
theorem missingPointReported : Obligations.MissingPointReported := by
  intro s i n hw hn hv
  have hr : (reads i).all s.valid = false := by
    rw [List.all_eq_false]
    exact ⟨n, hn, by simp [hv]⟩
  rw [exec_eq_execute, execute, executeInstr_uninit hw hr]
  exact ⟨_, rfl, ⟨rfl, rfl⟩, rfl, frameExcept_fail .uninit s⟩

end Sys2Proof.Machine

/-! SUPPORT. What the rule of each command does apart from the values it computes: the registers and point registers it
may write, the points it leaves, the trace it adds (R42 to R50, R145). -/

namespace Sys2Proof.Machine

variable {Ext : Type} {c : Params Ext} {b b' b'' : Block Ext} {rs rs' : List Reg} {ps ps' : List Nat}
  {evs evs' : List TraceEvent}

section Effects

/-- A rule that adds the events `evs` and writes at most the registers of `rs`, the point registers of `ps` and, with
them, PVALID. -/
structure Effect (rs : List Reg) (ps : List Nat) (evs : List TraceEvent) (b b' : Block Ext) : Prop where
  status : b'.status = b.status
  ie : b'.ie = b.ie
  trace : b'.trace = b.trace ++ evs
  reg : ∀ r, r ≠ .pvalid → r ∉ rs → readReg b' r = readReg b r
  point : ∀ n, n ∉ ps → b'.point n = b.point n

/-- Such a rule that leaves a value in each point register of `ps`. -/
structure Fills (rs : List Reg) (ps : List Nat) (evs : List TraceEvent) (b b' : Block Ext) : Prop
    extends Effect rs ps evs b b' where
  valid : ∀ n ∈ ps, b'.valid n = true

theorem Effect.trans (h : Effect rs ps evs b b') (h' : Effect rs' ps' evs' b' b'') :
    Effect (rs ++ rs') (ps ++ ps') (evs ++ evs') b b'' where
  status := h'.status.trans h.status
  ie := h'.ie.trans h.ie
  trace := by rw [h'.trace, h.trace, List.append_assoc]
  reg r hp hr := by
    rw [List.mem_append, not_or] at hr
    exact (h'.reg r hp hr.2).trans (h.reg r hp hr.1)
  point n hn := by
    rw [List.mem_append, not_or] at hn
    exact (h'.point n hn.2).trans (h.point n hn.1)

theorem Effect.mono (h : Effect rs ps evs b b') (hrs : rs ⊆ rs') (hps : ps ⊆ ps') : Effect rs' ps' evs b b' :=
  { h with
    reg := fun r hp hr => h.reg r hp fun hmem => hr (hrs hmem)
    point := fun n hn => h.point n fun hmem => hn (hps hmem) }

theorem Effect.valid_of_notMem (h : Effect rs ps evs b b') {n : Nat} (hn : n ∉ ps) : b'.valid n = b.valid n :=
  congrArg Option.isSome (h.point n hn)

theorem Fills.valid_eq (h : Fills rs ps evs b b') (n : Nat) : b'.valid n = (b.valid n || decide (n ∈ ps)) := by
  by_cases hn : n ∈ ps
  · simp [h.valid n hn, hn]
  · simp [h.valid_of_notMem hn, hn]

theorem Fills.keeps_valid (h : Fills rs ps evs b b') {n : Nat} (hn : b.valid n = true) : b'.valid n = true := by
  rw [h.valid_eq, hn, Bool.true_or]

theorem Fills.trans (h : Fills rs ps evs b b') (h' : Fills rs' ps' evs' b' b'') :
    Fills (rs ++ rs') (ps ++ ps') (evs ++ evs') b b'' where
  toEffect := h.toEffect.trans h'.toEffect
  valid n hn := by
    rcases List.mem_append.1 hn with hn | hn
    · exact h'.keeps_valid (h.valid n hn)
    · exact h'.valid n hn

theorem Fills.congr_points (h : Fills rs ps evs b b') (hps : ∀ n, n ∈ ps ↔ n ∈ ps') : Fills rs ps' evs b b' where
  toEffect := h.mono (List.Subset.refl rs) fun n hn => (hps n).1 hn
  valid n hn := h.valid n ((hps n).2 hn)

theorem Fills.refl (b : Block Ext) : Fills [] [] [] b b :=
  ⟨⟨rfl, rfl, (List.append_nil _).symm, fun _ _ _ => rfl, fun _ _ => rfl⟩, nofun⟩

theorem Fills.emitAll (h : Fills rs ps evs b b') (evs' : List TraceEvent) :
    Fills rs ps (evs ++ evs') b (b'.emitAll evs') :=
  { h with
    trace := by rw [emitAll_trace, h.trace, List.append_assoc]
    reg := fun r hp hr => (readReg_emitAll b' r evs').trans (h.reg r hp hr) }

theorem Fills.emit (h : Fills rs ps evs b b') (ev : TraceEvent) : Fills rs ps (evs ++ [ev]) b (b'.emit ev) :=
  h.emitAll [ev]

/-- One capability call. -/
theorem Fills.putPoint (h : Fills rs ps evs b b') {n : Nat} (hn : n < 14) (x : Ext) (ev : TraceEvent) :
    Fills rs (ps ++ [n]) (evs ++ [ev]) b (b'.putPoint n x ev) := by
  have hset : Fills [] [n] [] b' (b'.setPoint n x) :=
    ⟨⟨rfl, rfl, (List.append_nil _).symm, fun r hp _ => readReg_setPoint b' n x hp,
      fun m hm => point_setPoint_ne b' n x (List.ne_of_not_mem_cons hm)⟩,
      fun m hm => by simp [valid_setPoint, List.mem_singleton.1 hm, hn]⟩
  have := (h.trans hset).emit ev
  rwa [List.append_nil, List.append_nil] at this

end Effects

section WorkRegisters

/-- The registers of a scalar. -/
def scalarRegs : ScalarSel → List Reg
  | .ka => (List.finRange 4).map .ka
  | .kb => (List.finRange 4).map .kb

/-- U0..U3 and SGN. -/
def workRegs : List Reg := subscalarRegs [0, 1, 2, 3] ++ [.sgn]

/-- A rule that writes no register but U0..U3 and SGN, and the point registers of `ps`. -/
theorem effect_of_workRegs {u0 u1 u2 u3 : U128} {sgn : Sgn} {pr : Vector (Option Ext) 14}
    (hpr : ∀ n, n ∉ ps → ({ b with pr := pr } : Block Ext).point n = b.point n) :
    Effect workRegs ps evs b
      { b with u0 := u0, u1 := u1, u2 := u2, u3 := u3, sgn := sgn, pr := pr, trace := b.trace ++ evs } where
  status := rfl
  ie := rfl
  trace := rfl
  reg r hp hr := by
    cases r with
    | uLo e | uHi e => exact absurd (by revert e; decide) hr
    | sgn => exact absurd (by decide) hr
    | pvalid => exact absurd rfl hp
    | _ => rfl
  point := hpr

theorem fills_of_workRegs {u0 u1 u2 u3 : U128} {sgn : Sgn} :
    Fills workRegs [] evs b { b with u0 := u0, u1 := u1, u2 := u2, u3 := u3, sgn := sgn, trace := b.trace ++ evs } :=
  ⟨effect_of_workRegs fun _ _ => rfl, nofun⟩

theorem performMask_fills (s : ScalarSel) :
    ∃ b', performMask s b = some b' ∧ Fills (scalarRegs s) [] [.maskK s] b b' := by
  cases s
  · refine ⟨_, rfl, ⟨rfl, rfl, rfl, fun r _ hr => ?_, fun _ _ => rfl⟩, nofun⟩
    cases r with
    | ka j => exact absurd (by revert j; decide) hr
    | _ => rfl
  · refine ⟨_, rfl, ⟨rfl, rfl, rfl, fun r _ hr => ?_, fun _ _ => rfl⟩, nofun⟩
    cases r with
    | kb j => exact absurd (by revert j; decide) hr
    | _ => rfl

theorem performDecomp_fills (s : ScalarSel) :
    ∃ b', performDecomp c s b = some b' ∧ Fills workRegs [] [.decomp s] b b' := by
  cases s
  · exact ⟨_, rfl, fills_of_workRegs⟩
  · exact ⟨_, rfl, fills_of_workRegs⟩

theorem performRecode2_fills : ∃ b', performRecode2 b = some b' ∧ Fills workRegs [] (recodeTrace 2 127) b b' :=
  ⟨_, performRecode2_eq b, fills_of_workRegs⟩

theorem performRecode4_fills : ∃ b', performRecode4 b = some b' ∧ Fills workRegs [] (recodeTrace 4 126) b b' :=
  ⟨_, performRecode4_eq b, fills_of_workRegs⟩

/-- The working storage is clear (R59, R149): subscalars and signs are 0 and no point register holds a value. -/
structure Cleared (b : Block Ext) : Prop where
  sub : ∀ e, b.sub e = 0
  sgn : b.sgn = ⟨false, false, false, false, false⟩
  point : ∀ n, b.point n = none

theorem performScrub_clears :
    ∃ b', performScrub b = some b' ∧ Effect workRegs (List.range 14) [.clear] b b' ∧ Cleared b' := by
  refine ⟨_, rfl, effect_of_workRegs fun n hn => ?_, ?_, rfl, dropPoints_point b⟩
  · have hn : 14 ≤ n := by simpa using hn
    rw [point_reserved _ hn, point_reserved _ hn]
  · intro e
    fin_cases e <;> rfl

end WorkRegisters

section PointCommands

theorem performBase_fills (e : BitVec 2) (phi : Bool) (src : BitVec 2) :
    ∃ b', performBase c e phi src b = some b' ∧ Fills [] [baseReg e] (baseTrace e phi src) b b' := by
  have hreg : baseReg e < 14 := by unfold baseReg; omega
  cases phi
  · exact ⟨_, rfl, ((Fills.refl b).emit _).putPoint hreg _ _⟩
  · exact ⟨_, rfl, (((Fills.refl b).emit _).emit _).putPoint hreg _ _⟩

theorem performGent2_fills (h8 : b.valid 8 = true) (h9 : b.valid 9 = true) :
    ∃ b', performGent2 c b = some b' ∧ Fills [] (List.range 8) gent2Trace b b' := by
  obtain ⟨pA, hA⟩ := (valid_iff b 8).1 h8
  obtain ⟨pB, hB⟩ := (valid_iff b 9).1 h9
  simp only [performGent2, hA, hB, Option.bind_eq_bind, Option.bind_some]
  exact ⟨_, rfl, (Fills.refl b |>.emit _ |>.putPoint (by decide) _ _ |>.putPoint (by decide) _ _
    |>.putPoint (by decide) _ _ |>.emit _ |>.putPoint (by decide) _ _ |>.emit _ |>.putPoint (by decide) _ _
    |>.putPoint (by decide) _ _ |>.putPoint (by decide) _ _ |>.putPoint (by decide) _ _).congr_points
    fun n => by simp; omega⟩

theorem performGent4_fills (h8 : b.valid 8 = true) (h9 : b.valid 9 = true) (h10 : b.valid 10 = true)
    (h11 : b.valid 11 = true) :
    ∃ b', performGent4 c b = some b' ∧ Fills [] (List.range 8) gent4Trace b b' := by
  obtain ⟨pA, hA⟩ := (valid_iff b 8).1 h8
  obtain ⟨pB, hB⟩ := (valid_iff b 9).1 h9
  obtain ⟨pC, hC⟩ := (valid_iff b 10).1 h10
  obtain ⟨pD, hD⟩ := (valid_iff b 11).1 h11
  simp only [performGent4, hA, hB, hC, hD, Option.bind_eq_bind, Option.bind_some]
  exact ⟨_, rfl, Fills.refl b |>.putPoint (by decide) _ _ |>.putPoint (by decide) _ _ |>.putPoint (by decide) _ _
    |>.putPoint (by decide) _ _ |>.putPoint (by decide) _ _ |>.putPoint (by decide) _ _ |>.putPoint (by decide) _ _
    |>.putPoint (by decide) _ _⟩

/-- A full table, as the function of its entries that the selects' equations take. -/
theorem exists_table (ht : ∀ j < 8, b.valid j = true) : ∃ T : Nat → Ext, ∀ j < 8, b.point j = some (T j) := by
  obtain ⟨x0, -⟩ := (valid_iff b 0).1 (ht 0 (by decide))
  have : Nonempty Ext := ⟨x0⟩
  have hpoints : ∀ j, j < 8 → ∃ x, b.point j = some x := fun j hj => (valid_iff b j).1 (ht j hj)
  choose! T hT using hpoints
  exact ⟨T, hT⟩

theorem destReg_lt (d : PointDest) : destReg d < 14 := by cases d <;> decide

theorem performSel2_fills (ht : ∀ j < 8, b.valid j = true) (i : Nat) (d : PointDest) :
    ∃ b', performSel2 c i d b = some b' ∧ Fills [] [destReg d] (selectTrace (destReg d)) b b' := by
  obtain ⟨T, hT⟩ := exists_table ht
  exact ⟨_, performSel2_eq c i d b T hT, ((Fills.refl b).emitAll scanTrace).putPoint (destReg_lt d) _ _⟩

theorem performSel4_fills (ht : ∀ j < 8, b.valid j = true) (i : Nat) (d : PointDest) :
    ∃ b', performSel4 c i d b = some b' ∧ Fills [] [destReg d] (selectTrace (destReg d)) b b' := by
  obtain ⟨T, hT⟩ := exists_table ht
  exact ⟨_, performSel4_eq c i d b T hT, ((Fills.refl b).emitAll scanTrace).putPoint (destReg_lt d) _ _⟩

theorem performDbl_fills (hx : b.valid 12 = true) :
    ∃ b', performDbl c b = some b' ∧ Fills [] [12] doubleTrace b b' := by
  obtain ⟨x, hx⟩ := (valid_iff b 12).1 hx
  exact ⟨_, bind_eq_some_of hx rfl, (Fills.refl b).putPoint (by decide) _ _⟩

theorem performAdd_fills (hx : b.valid 12 = true) (hy : b.valid 13 = true) :
    ∃ b', performAdd c b = some b' ∧ Fills [] [12] addTrace b b' := by
  obtain ⟨x, hx⟩ := (valid_iff b 12).1 hx
  obtain ⟨y, hy⟩ := (valid_iff b 13).1 hy
  exact ⟨_, bind_eq_some_of hx (bind_eq_some_of hy rfl), (Fills.refl b).putPoint (by decide) _ _⟩

theorem performCorrect_fills (h8 : b.valid 8 = true) (hx : b.valid 12 = true) :
    ∃ b', performCorrect c b = some b' ∧ Fills [] [12] [.condAdd (.pr 12) (.pr 12) (.pr 8)] b b' := by
  obtain ⟨e0, h8⟩ := (valid_iff b 8).1 h8
  obtain ⟨x, hx⟩ := (valid_iff b 12).1 hx
  exact ⟨_, bind_eq_some_of hx (bind_eq_some_of h8 rfl), (Fills.refl b).putPoint (by decide) _ _⟩

theorem performCofactor_fills (hx : b.valid 12 = true) :
    ∃ b', performCofactor c b = some b' ∧ Fills [] [12] (doubleTrace ++ doubleTrace) b b' := by
  obtain ⟨x, hx⟩ := (valid_iff b 12).1 hx
  exact ⟨_, bind_eq_some_of hx rfl,
    (((Fills.refl b).putPoint (by decide) _ _).putPoint (by decide) _ _).congr_points fun n => by simp⟩

theorem performAffine_fills {n : Nat} (hx : b.valid n = true) :
    ∃ b', performAffine c n b = some b' ∧ Fills resultRegs [] [.affine n] b b' := by
  obtain ⟨x, hx⟩ := (valid_iff b n).1 hx
  refine ⟨_, bind_eq_some_of hx rfl, ⟨rfl, rfl, rfl, fun r _ hr => ?_, fun _ _ => rfl⟩, nofun⟩
  cases r with
  | rx j | ry j => exact absurd (by revert j; decide) hr
  | _ => rfl

end PointCommands

section Ladders

/-- The points n times written in turn are the points. -/
theorem mem_flatten_replicate {n : Nat} (hn : n ≠ 0) (ns : List Nat) (m : Nat) :
    m ∈ (List.replicate n ns).flatten ↔ m ∈ ns := by
  simp [List.mem_flatten, List.mem_replicate, hn]

theorem ladder2Loop_fills (n : Nat) :
    ∀ b : Block Ext, (∀ j < 8, b.valid j = true) → b.valid 12 = true →
      ∃ b', ladder2Loop c n b = some b' ∧ Fills [] (List.replicate n [13, 12, 12, 12]).flatten
        (List.replicate n (selectTrace 13 ++ doubleTrace ++ doubleTrace ++ addTrace)).flatten b b' := by
  induction n with
  | zero => exact fun b _ _ => ⟨b, rfl, Fills.refl b⟩
  | succ n ih =>
    intro b ht hx
    obtain ⟨b1, hrun1, h1⟩ := performSel2_fills (c := c) ht (2 * n) .y
    obtain ⟨b2, hrun2, h2⟩ := performDbl_fills (c := c) (h1.keeps_valid hx)
    obtain ⟨b3, hrun3, h3⟩ := performDbl_fills (c := c) (h2.valid 12 (by decide))
    obtain ⟨b4, hrun4, h4⟩ := performAdd_fills (c := c) (h3.valid 12 (by decide))
      ((h2.trans h3).keeps_valid (h1.valid 13 (by decide)))
    have hbody := ((h1.trans h2).trans h3).trans h4
    obtain ⟨b', hrun, h⟩ := ih b4 (fun j hj => hbody.keeps_valid (ht j hj)) (h4.valid 12 (by decide))
    exact ⟨b', bind_eq_some_of hrun1 (bind_eq_some_of hrun2 (bind_eq_some_of hrun3 (bind_eq_some_of hrun4 hrun))),
      hbody.trans h⟩

theorem performLadder2_fills (ht : ∀ j < 8, b.valid j = true) :
    ∃ b', performLadder2 c b = some b' ∧ Fills [] [12, 13] ladder2Trace b b' := by
  obtain ⟨b1, hrun1, h1⟩ := performSel2_fills (c := c) ht 126 .x
  obtain ⟨b', hrun, h⟩ := ladder2Loop_fills (c := c) 63 b1 (fun j hj => h1.keeps_valid (ht j hj))
    (h1.valid 12 (by decide))
  refine ⟨b', bind_eq_some_of hrun1 hrun, (h1.trans h).congr_points fun m => ?_⟩
  rw [List.mem_append, mem_flatten_replicate (by decide)]
  simp [destReg, or_comm]

theorem ladder4Loop_fills (n : Nat) :
    ∀ b : Block Ext, (∀ j < 8, b.valid j = true) → b.valid 12 = true →
      ∃ b', ladder4Loop c n b = some b' ∧ Fills [] (List.replicate n [13, 12, 12]).flatten
        (List.replicate n (selectTrace 13 ++ doubleTrace ++ addTrace)).flatten b b' := by
  induction n with
  | zero => exact fun b _ _ => ⟨b, rfl, Fills.refl b⟩
  | succ n ih =>
    intro b ht hx
    obtain ⟨b1, hrun1, h1⟩ := performSel4_fills (c := c) ht n .y
    obtain ⟨b2, hrun2, h2⟩ := performDbl_fills (c := c) (h1.keeps_valid hx)
    obtain ⟨b3, hrun3, h3⟩ := performAdd_fills (c := c) (h2.valid 12 (by decide))
      (h2.keeps_valid (h1.valid 13 (by decide)))
    have hbody := (h1.trans h2).trans h3
    obtain ⟨b', hrun, h⟩ := ih b3 (fun j hj => hbody.keeps_valid (ht j hj)) (h3.valid 12 (by decide))
    exact ⟨b', bind_eq_some_of hrun1 (bind_eq_some_of hrun2 (bind_eq_some_of hrun3 hrun)), hbody.trans h⟩

theorem performLadder4_fills (ht : ∀ j < 8, b.valid j = true) :
    ∃ b', performLadder4 c b = some b' ∧ Fills [] [12, 13] ladder4Trace b b' := by
  obtain ⟨b1, hrun1, h1⟩ := performSel4_fills (c := c) ht 126 .x
  obtain ⟨b', hrun, h⟩ := ladder4Loop_fills (c := c) 126 b1 (fun j hj => h1.keeps_valid (ht j hj))
    (h1.valid 12 (by decide))
  refine ⟨b', bind_eq_some_of hrun1 hrun, (h1.trans h).congr_points fun m => ?_⟩
  rw [List.mem_append, mem_flatten_replicate (by decide)]
  simp [destReg, or_comm]

end Ladders

end Sys2Proof.Machine

/-! SUPPORT. The public operations as sequences of those rules (R59, R150, R260 to R262, R268), and every command's rule
in one statement. -/

namespace Sys2Proof.Machine

variable {Ext : Type} {c : Params Ext} {b : Block Ext}

section PublicOperations

/-- The end MUL, MUL_GEN and SIMUL share: the result goes to RX and RY, and the working storage is cleared. -/
theorem performTail_clears (h8 : b.valid 8 = true) (hx : b.valid 12 = true) :
    ∃ b', (do
        let b ← performCorrect c b
        let b ← performCofactor c b
        let b ← performAffine c 12 b
        performScrub b) = some b' ∧
      Effect (resultRegs ++ workRegs) (List.range 14) tailTrace b b' ∧ Cleared b' := by
  obtain ⟨b1, hrun1, h1⟩ := performCorrect_fills (c := c) h8 hx
  obtain ⟨b2, hrun2, h2⟩ := performCofactor_fills (c := c) (h1.valid 12 (by decide))
  obtain ⟨b3, hrun3, h3⟩ := performAffine_fills (c := c) (h2.valid 12 (by decide))
  obtain ⟨b', hrun, h, hclear⟩ := performScrub_clears (b := b3)
  refine ⟨b', bind_eq_some_of hrun1 (bind_eq_some_of hrun2 (bind_eq_some_of hrun3 hrun)), ?_, hclear⟩
  exact (((h1.trans h2).trans h3).toEffect.trans h).mono (List.Subset.refl _) (by decide)

/-- What MUL, MUL_GEN and SIMUL may write beside point registers and STATUS (R268). -/
def publicRegs : List Reg := workRegs ++ resultRegs

theorem performMulOn_clears (src : BitVec 2) :
    ∃ b', performMulOn c src b = some b' ∧ Effect publicRegs (List.range 14) (mulTrace src) b b' ∧ Cleared b' := by
  obtain ⟨b1, hrun1, h1⟩ := performDecomp_fills (c := c) (b := b) .ka
  obtain ⟨b2, hrun2, h2⟩ := performBase_fills (c := c) (b := b1) 0 false src
  obtain ⟨b3, hrun3, h3⟩ := performBase_fills (c := c) (b := b2) 1 true src
  obtain ⟨b4, hrun4, h4⟩ := performGent2_fills (c := c) (h3.keeps_valid (h2.valid 8 (by decide)))
    (h3.valid 9 (by decide))
  obtain ⟨b5, hrun5, h5⟩ := performRecode2_fills (b := b4)
  obtain ⟨b6, hrun6, h6⟩ := performLadder2_fills (c := c)
    fun j hj => h5.keeps_valid (h4.valid j (List.mem_range.2 hj))
  have hbuild := ((((h1.trans h2).trans h3).trans h4).trans h5).trans h6
  obtain ⟨b', hrun, h, hclear⟩ := performTail_clears (c := c) (hbuild.valid 8 (by decide)) (h6.valid 12 (by decide))
  refine ⟨b', ?_, ?_, hclear⟩
  · exact bind_eq_some_of hrun1 (bind_eq_some_of hrun2 (bind_eq_some_of hrun3 (bind_eq_some_of hrun4
      (bind_eq_some_of hrun5 (bind_eq_some_of hrun6 hrun)))))
  · exact (hbuild.toEffect.trans h).mono (by decide) (by decide)

theorem performSimul_clears :
    ∃ b', performSimul c b = some b' ∧ Effect publicRegs (List.range 14) simulTrace b b' ∧ Cleared b' := by
  obtain ⟨b1, hrun1, h1⟩ := performDecomp_fills (c := c) (b := b) .ka
  obtain ⟨b2, hrun2, h2⟩ := performDecomp_fills (c := c) (b := b1) .kb
  obtain ⟨b3, hrun3, h3⟩ := performBase_fills (c := c) (b := b2) 0 false 0
  obtain ⟨b4, hrun4, h4⟩ := performBase_fills (c := c) (b := b3) 1 true 0
  obtain ⟨b5, hrun5, h5⟩ := performBase_fills (c := c) (b := b4) 2 false 1
  obtain ⟨b6, hrun6, h6⟩ := performBase_fills (c := c) (b := b5) 3 true 1
  have hbases := ((h3.trans h4).trans h5).trans h6
  obtain ⟨b7, hrun7, h7⟩ := performGent4_fills (c := c) (hbases.valid 8 (by decide)) (hbases.valid 9 (by decide))
    (hbases.valid 10 (by decide)) (hbases.valid 11 (by decide))
  obtain ⟨b8, hrun8, h8⟩ := performRecode4_fills (b := b7)
  obtain ⟨b9, hrun9, h9⟩ := performLadder4_fills (c := c)
    fun j hj => h8.keeps_valid (h7.valid j (List.mem_range.2 hj))
  have hbuild := ((((h1.trans h2).trans hbases).trans h7).trans h8).trans h9
  obtain ⟨b', hrun, h, hclear⟩ := performTail_clears (c := c) (hbuild.valid 8 (by decide)) (h9.valid 12 (by decide))
  refine ⟨b', ?_, ?_, hclear⟩
  · exact bind_eq_some_of hrun1 (bind_eq_some_of hrun2 (bind_eq_some_of hrun3 (bind_eq_some_of hrun4
      (bind_eq_some_of hrun5 (bind_eq_some_of hrun6 (bind_eq_some_of hrun7 (bind_eq_some_of hrun8
      (bind_eq_some_of hrun9 hrun))))))))
  · exact (hbuild.toEffect.trans h).mono (by decide) (by decide)

end PublicOperations

section EveryCommand

/-- The commands that end with every point register empty (R149, R268). -/
def dropsPoints : Instr → Bool
  | .mul | .mulGen | .simul | .scrub => true
  | _ => false

/-- The registers a command may write, beside STATUS and PVALID. -/
def regsWritten : Instr → List Reg
  | .mask s => scalarRegs s
  | .decomp _ | .recode2 | .recode4 | .scrub => workRegs
  | .affine _ => resultRegs
  | .mul | .mulGen | .simul => publicRegs
  | _ => []

/-- The point registers a command may write. -/
def pointsWritten : Instr → List Nat
  | .mul | .mulGen | .simul | .scrub => List.range 14
  | .base e _ _ => [baseReg e]
  | .gent2 | .gent4 => List.range 8
  | .sel2 _ d | .sel4 _ d => [destReg d]
  | .ladder2 | .ladder4 => [12, 13]
  | .dbl | .add | .correct | .cofactor => [12]
  | .nop | .mask _ | .decomp _ | .recode2 | .recode4 | .affine _ => []

/-- R48: the PV a command that completes with E_OK leaves, from the PV it found. -/
def validAfter (i : Instr) (pv : Nat → Bool) (n : Nat) : Bool :=
  if dropsPoints i then false else pv n || decide (n ∈ pointsWritten i)

/-- A command that is not one of those that drop the points fills the point registers it writes. -/
theorem perform_fills (i : Instr) (hi : dropsPoints i = false) (hr : ∀ n ∈ reads i, b.valid n = true) :
    ∃ b', perform c i b = some b' ∧ Fills (regsWritten i) (pointsWritten i) (traceOf i) b b' := by
  have htable : (∀ n ∈ [0, 1, 2, 3, 4, 5, 6, 7], b.valid n = true) → ∀ j < 8, b.valid j = true :=
    fun h j hj => h j (List.mem_range.2 hj)
  cases i with
  | nop => exact ⟨b, rfl, Fills.refl b⟩
  | mask s => exact performMask_fills s
  | decomp s => exact performDecomp_fills s
  | base e phi src => exact performBase_fills e phi src
  | gent2 => exact performGent2_fills (hr 8 (by decide)) (hr 9 (by decide))
  | gent4 =>
    exact performGent4_fills (hr 8 (by decide)) (hr 9 (by decide)) (hr 10 (by decide)) (hr 11 (by decide))
  | recode2 => exact performRecode2_fills
  | recode4 => exact performRecode4_fills
  | sel2 idx d =>
    have h := performSel2_fills (c := c) (htable hr) idx.toNat d
    cases d <;> exact h
  | sel4 idx d =>
    have h := performSel4_fills (c := c) (htable hr) idx.toNat d
    cases d <;> exact h
  | ladder2 => exact performLadder2_fills (htable hr)
  | ladder4 => exact performLadder4_fills (htable hr)
  | dbl => exact performDbl_fills (hr 12 (by decide))
  | add => exact performAdd_fills (hr 12 (by decide)) (hr 13 (by decide))
  | correct => exact performCorrect_fills (hr 8 (by decide)) (hr 12 (by decide))
  | cofactor => exact performCofactor_fills (hr 12 (by decide))
  | affine psrc => exact performAffine_fills (hr psrc.toNat List.mem_cons_self)
  | mul | mulGen | simul | scrub => exact absurd hi.symm Bool.false_ne_true

/-- SCRUB and the public operations clear the working storage. -/
theorem perform_clears (i : Instr) (hi : dropsPoints i = true) :
    ∃ b', perform c i b = some b' ∧ Effect (regsWritten i) (pointsWritten i) (traceOf i) b b' ∧ Cleared b' := by
  cases i with
  | mul => exact performMulOn_clears 0
  | mulGen => exact performMulOn_clears 2
  | simul => exact performSimul_clears
  | scrub => exact performScrub_clears
  | _ => exact absurd hi Bool.false_ne_true

/-- Every command whose reads hold values succeeds, with the trace of its rule and a PV that depends on PV alone. -/
theorem perform_effect (i : Instr) (hr : (reads i).all b.valid = true) :
    ∃ b', perform c i b = some b' ∧ Effect (regsWritten i) (pointsWritten i) (traceOf i) b b' ∧
      b'.valid = validAfter i b.valid := by
  cases hi : dropsPoints i
  · obtain ⟨b', hrun, h⟩ := perform_fills (c := c) i hi (List.all_eq_true.1 hr)
    exact ⟨b', hrun, h.toEffect, funext fun n => by simp [validAfter, hi, h.valid_eq]⟩
  · obtain ⟨b', hrun, h, hclear⟩ := perform_clears (c := c) (b := b) i hi
    exact ⟨b', hrun, h, funext fun n => by simp [validAfter, hi, Block.valid, hclear.point]⟩

/-- R143 for a well-formed command whose reads hold values. -/
theorem execute_completes {i : Instr} (hw : wellFormed i = true) (hr : (reads i).all b.valid = true) :
    ∃ b', execute c i b = finish .ok b' ∧
      Effect (regsWritten i) (pointsWritten i) (traceOf i) b.clearTrace b' ∧ b'.valid = validAfter i b.valid := by
  obtain ⟨b', hrun, h, hvalid⟩ := perform_effect (c := c) (b := b.clearTrace) i hr
  exact ⟨b', execute_ok hw hr hrun, h, hvalid⟩

/-- All that executing a command can do: it is turned away, or its rule runs and it ends with E_OK (R143). -/
theorem execute_cases (c : Params Ext) (i : Instr) (b : Block Ext) :
    (∃ code, execute c i b = fail code b) ∨
    ((reads i).all b.valid = true ∧ ∃ b', execute c i b = finish .ok b' ∧
      Effect (regsWritten i) (pointsWritten i) (traceOf i) b.clearTrace b' ∧ b'.valid = validAfter i b.valid) := by
  cases hw : wellFormed i
  · exact .inl ⟨.field, executeInstr_field hw⟩
  · cases hr : (reads i).all b.valid
    · exact .inl ⟨.uninit, executeInstr_uninit hw hr⟩
    · exact .inr ⟨rfl, execute_completes hw hr⟩

end EveryCommand

end Sys2Proof.Machine

/-! CERTIFICATE. What commands write: nothing but their registers (R42, R45, R46, R50, R284), and what the public
operations leave (R59, R268). -/

namespace Sys2Proof.Machine

section WriteSets

variable {Ext : Type} {b b' : Block Ext} {rs : List Reg} {ps : List Nat} {evs : List TraceEvent}

/-- A 256-bit register whose words are not written keeps its value. -/
theorem Effect.scalar_eq (h : Effect rs ps evs b b') (s : ScalarSel) (hs : ∀ r ∈ scalarRegs s, r ∉ rs) :
    b'.scalar s = b.scalar s := by
  cases s
  · exact eq_of_limbs fun j => h.reg (.ka j) nofun (hs _ (by revert j; decide))
  · exact eq_of_limbs fun j => h.reg (.kb j) nofun (hs _ (by revert j; decide))

theorem Effect.result_eq (h : Effect rs ps evs b b') (hs : ∀ r ∈ resultRegs, r ∉ rs) :
    b'.rx = b.rx ∧ b'.ry = b.ry :=
  ⟨eq_of_limbs fun j => h.reg (.rx j) nofun (hs _ (by revert j; decide)),
    eq_of_limbs fun j => h.reg (.ry j) nofun (hs _ (by revert j; decide))⟩

/-- CMD and the affine slots of the inputs (R45, R51). -/
def inputRegs : List Reg :=
  .cmd :: ((List.finRange 4).map .px ++ (List.finRange 4).map .py ++ (List.finRange 4).map .qx ++
    (List.finRange 4).map .qy)

theorem Effect.input_eq (h : Effect rs ps evs b b') (hs : ∀ r ∈ inputRegs, r ∉ rs) :
    b'.px = b.px ∧ b'.py = b.py ∧ b'.qx = b.qx ∧ b'.qy = b.qy ∧ b'.cmd = b.cmd :=
  ⟨eq_of_limbs fun j => h.reg (.px j) nofun (hs _ (by revert j; decide)),
    eq_of_limbs fun j => h.reg (.py j) nofun (hs _ (by revert j; decide)),
    eq_of_limbs fun j => h.reg (.qx j) nofun (hs _ (by revert j; decide)),
    eq_of_limbs fun j => h.reg (.qy j) nofun (hs _ (by revert j; decide)),
    h.reg .cmd nofun (hs _ (by decide))⟩

theorem Effect.finish_status (h : Effect rs ps evs b b') (code : ECode) :
    (finish code b').status = { b.status with busy := false, done := true, ecode := code } := by
  rw [Machine.finish_status, h.status]

theorem inputRegs_notMem_regsWritten (i : Instr) : ∀ r ∈ inputRegs, r ∉ regsWritten i := by
  cases i with
  | mask s => cases s <;> decide
  | _ => simp only [regsWritten]; decide

theorem scalarRegs_notMem_regsWritten {i : Instr} (hi : ∀ sel, i ≠ .mask sel) (s : ScalarSel) :
    ∀ r ∈ scalarRegs s, r ∉ regsWritten i := by
  cases i with
  | mask sel => exact absurd rfl (hi sel)
  | _ => simp only [regsWritten]; cases s <;> decide

theorem resultRegs_notMem_regsWritten {i : Instr} (hmul : i ≠ .mul) (hgen : i ≠ .mulGen) (hsimul : i ≠ .simul)
    (haffine : ∀ n, i ≠ .affine n) : ∀ r ∈ resultRegs, r ∉ regsWritten i := by
  cases i with
  | mul | mulGen | simul => contradiction
  | affine psrc => exact absurd rfl (haffine psrc)
  | mask s => cases s <;> decide
  | _ => simp only [regsWritten]; decide

theorem dropsPoints_eq_false {i : Instr} (hmul : i ≠ .mul) (hgen : i ≠ .mulGen) (hsimul : i ≠ .simul)
    (hscrub : i ≠ .scrub) : dropsPoints i = false := by
  cases i with
  | mul | mulGen | simul | scrub => contradiction
  | _ => rfl

/-- R50: the table is written by GENT2, GENT4 and the commands that drop the points only. -/
theorem table_notMem_pointsWritten {i : Instr} (h2 : i ≠ .gent2) (h4 : i ≠ .gent4) (hi : dropsPoints i = false)
    {j : Nat} (hj : j < 8) : j ∉ pointsWritten i := by
  cases i with
  | gent2 | gent4 => contradiction
  | mul | mulGen | simul | scrub => exact absurd hi.symm Bool.false_ne_true
  | base e phi src => simp [pointsWritten, baseReg]; omega
  | sel2 idx d | sel4 idx d => cases d <;> simp [pointsWritten, destReg] <;> omega
  | _ => simp [pointsWritten] <;> omega

end WriteSets

/-- Settles O51: a command turned away changes STATUS only; any other writes the registers of its rule. -/
theorem commandsWriteOnlyTheirRegisters : Obligations.CommandsWriteOnlyTheirRegisters := by
  intro s t i hexec
  rw [exec_eq_execute] at hexec
  obtain rfl := Host.Outcome.next.inj hexec
  rcases execute_cases Config.params i s.toBlock with ⟨code, hfail⟩ | ⟨-, b', hdone, h, -⟩
  · rw [hfail]
    exact ⟨⟨rfl, rfl, rfl, rfl, rfl, rfl, rfl, rfl⟩, fun _ => ⟨rfl, rfl⟩, fun _ _ _ _ => ⟨rfl, rfl⟩,
      fun _ _ _ _ _ _ _ _ => rfl⟩
  · rw [hdone]
    obtain ⟨hpx, hpy, hqx, hqy, hcmd⟩ := h.input_eq (inputRegs_notMem_regsWritten i)
    refine ⟨⟨hpx, hpy, hqx, hqy, hcmd, h.ie, (congrArg Status.cerr h.status :),
      (congrArg Status.werr h.status :)⟩,
      fun hmask => ?_, fun hmul hgen hsimul haffine => ?_, fun h2 h4 hmul hgen hsimul hscrub j hj => ?_⟩
    · exact ⟨h.scalar_eq .ka (scalarRegs_notMem_regsWritten hmask .ka),
        h.scalar_eq .kb (scalarRegs_notMem_regsWritten hmask .kb)⟩
    · exact h.result_eq (resultRegs_notMem_regsWritten hmul hgen hsimul haffine)
    · exact h.point j (table_notMem_pointsWritten h2 h4 (dropsPoints_eq_false hmul hgen hsimul hscrub) hj)

/-- R59, R268: what MUL, MUL_GEN and SIMUL leave, from every block. -/
theorem execute_public {Ext : Type} (c : Params Ext) {i : Instr} (hi : i = .mul ∨ i = .mulGen ∨ i = .simul)
    (b : Block Ext) :
    ∃ b', execute c i b = finish .ok b' ∧ Effect publicRegs (List.range 14) (traceOf i) b.clearTrace b' ∧
      Cleared b' := by
  obtain ⟨hdrops, hw, hreads, hregs, hpoints⟩ : dropsPoints i = true ∧ wellFormed i = true ∧ reads i = [] ∧
      regsWritten i = publicRegs ∧ pointsWritten i = List.range 14 := by
    rcases hi with rfl | rfl | rfl <;> exact ⟨rfl, rfl, rfl, rfl, rfl⟩
  obtain ⟨b', hrun, h, hclear⟩ := perform_clears (c := c) (b := b.clearTrace) i hdrops
  rw [hregs, hpoints] at h
  exact ⟨b', execute_ok hw (by rw [hreads, List.all_nil]) hrun, h, hclear⟩

/-- Settles O39: the operation ends with SCRUB, and its rules before it write working storage, RX and RY only. -/
theorem publicOperationsLeaveOnlyTheResult : Obligations.PublicOperationsLeaveOnlyTheResult := by
  intro s i hi
  obtain ⟨b', hdone, h, hclear⟩ := execute_public Config.params hi s.toBlock
  rw [exec_eq_execute, hdone]
  refine ⟨_, rfl, ⟨h.finish_status .ok, rfl⟩, hclear.sub, hclear.sgn, hclear.point, ?_, ?_, h.point, rfl, rfl, rfl⟩
  · apply BitVec.eq_of_getLsbD_eq
    intro n _
    simp [getLsbD_pvalid, Block.valid, hclear.point]
  · intro r hr
    have hstatus : r ≠ .status := by rintro rfl; exact hr (by decide)
    have hpvalid : r ≠ .pvalid := by rintro rfl; exact hr (by decide)
    have hsub : publicRegs ⊆ subscalarRegs [0, 1, 2, 3] ++ resultRegs ++ [.sgn, .status, .pvalid] := by decide
    have hpublic : r ∉ publicRegs := fun hmem => hr (hsub hmem)
    rw [readReg_finish _ _ hstatus, h.reg r hpvalid hpublic, readReg_clearTrace]

end Sys2Proof.Machine

/-! SUPPORT. All that one step can do to the block: nothing, a pending word's execution, a host write, or reset (R85,
R88, R142, R310); and what a register write can be (R52, R53, R88, R90, R140, R141). -/

namespace Sys2Proof.Machine

section Steps

theorem engineStep_idle {s : State} (hp : s.pending = none) : engineStep s = .next s := by
  simp [engineStep, hp]

/-- R142, R143: the engine's turn is the spec's `execute` of the pending word. -/
theorem engineStep_pending {s : State} {w : Word} (hp : s.pending = some w) :
    engineStep s = .next { s with toBlock := executeWord Config.params w s.toBlock } := by
  cases hd : decode w <;> simp [engineStep, executeWord, hp, hd, exec_eq_execute]

theorem engineStep_cases {s t : State} (h : engineStep s = .next t) :
    t.toBlock = s.toBlock ∨ ∃ w, s.pending = some w ∧ t.toBlock = executeWord Config.params w s.toBlock := by
  cases hp : s.pending with
  | none =>
    rw [engineStep_idle hp] at h
    exact .inl (congrArg State.toBlock (Host.Outcome.next.inj h)).symm
  | some w =>
    rw [engineStep_pending hp] at h
    exact .inr ⟨w, rfl, (congrArg State.toBlock (Host.Outcome.next.inj h)).symm⟩

/-- R88: no read changes the block. -/
theorem hostRead_toBlock {off : BitVec 12} {bytes : Nat} {s t : State} (h : hostRead off bytes s = .next t) :
    t.toBlock = s.toBlock := by
  unfold hostRead at h
  split at h
  · split at h <;> exact (congrArg State.toBlock (Host.Outcome.next.inj h)).symm
  · nomatch h

theorem hostWrite_toBlock {off : BitVec 12} {bytes : Nat} {v : Word} {s t : State}
    (h : hostWrite off bytes v s = .next t) :
    bytes = 8 ∧ t.toBlock = writeReg s.toBlock (regAt off) v := by
  unfold hostWrite at h
  split at h
  · next ha =>
    simp only [admitted, Bool.and_eq_true, beq_iff_eq] at ha
    exact ⟨ha.1, (congrArg State.toBlock (Host.Outcome.next.inj h)).symm⟩
  · nomatch h

/-- What a step leaves of the block, whoever moves. -/
theorem step_cases {s t : State} (h : step s = .next t) :
    t.toBlock = s.toBlock ∨
    (∃ w, s.pending = some w ∧ t.toBlock = executeWord Config.params w s.toBlock) ∨
    (∃ off v rest, s.schedule = .write off 8 v :: rest ∧ t.toBlock = writeReg s.toBlock (regAt off) v) ∨
    t.toBlock = Block.reset := by
  unfold step at h
  cases hs : s.schedule with
  | nil =>
    rw [hs] at h
    exact (engineStep_cases h).imp_right .inl
  | cons e rest =>
    rw [hs] at h
    cases e with
    | read off bytes => exact .inl (hostRead_toBlock (s := { s with schedule := rest }) h)
    | write off bytes v =>
      obtain ⟨rfl, ht⟩ := hostWrite_toBlock (s := { s with schedule := rest }) h
      exact .inr (.inr (.inl ⟨off, v, rest, rfl, ht⟩))
    | engine => exact (engineStep_cases (s := { s with schedule := rest }) h).imp_right .inl
    | reset => exact .inr (.inr (.inr (congrArg State.toBlock (Host.Outcome.next.inj h)).symm))

end Steps

section Blocks

variable {Ext : Type} (b : Block Ext)

/-- A register write issues a command or drops it, clears status bits, sets IE, drops an operand, or stores one (a
write to a read-only register or a reserved offset stores nothing). -/
theorem writeReg_cases (r : Reg) (v : Word) :
    writeReg b r v = rejectCommand b ∨
    writeReg b r v = accept v b ∨
    writeReg b r v = { b with status := statusAfterWrite b.status v } ∨
    (r = .ctrl ∧ writeReg b r v = { b with ie := v.getLsbD 0 }) ∨
    writeReg b r v = rejectOperand b ∨
    writeReg b r v = storeOperand b r v := by
  cases hop : isOperand r
  · cases r with
    | cmd =>
      cases hb : b.status.busy <;> simp [writeReg, hb]
    | status => exact .inr (.inr (.inl rfl))
    | ctrl => exact .inr (.inr (.inr (.inl ⟨rfl, rfl⟩)))
    | pvalid | rx | ry | reserved => exact .inr (.inr (.inr (.inr (.inr rfl))))
    | ka | kb | uLo | uHi | sgn | px | py | qx | qy => exact absurd hop.symm Bool.false_ne_true
  · rw [writeReg_operand b hop]
    cases b.status.busy
    · exact .inr (.inr (.inr (.inr (.inr rfl))))
    · exact .inr (.inr (.inr (.inr (.inl rfl))))

/-- All that executing a word can do: STATUS alone changes, or a command's rule runs and the word ends with E_OK. -/
theorem executeWord_cases (c : Params Ext) (w : Word) :
    (∃ code, executeWord c w b = fail code b) ∨
    ∃ i b', (reads i).all b.valid = true ∧ executeWord c w b = finish .ok b' ∧
      Effect (regsWritten i) (pointsWritten i) (traceOf i) b.clearTrace b' ∧ b'.valid = validAfter i b.valid := by
  unfold executeWord
  cases decode w with
  | cmd i =>
    rcases execute_cases c i b with hfail | ⟨hr, b', hdone, h, hvalid⟩
    · exact .inl hfail
    · exact .inr ⟨i, b', hr, hdone, h, hvalid⟩
  | illegal why => exact .inl ⟨.illegal, rfl⟩
  | fieldErr why => exact .inl ⟨.field, rfl⟩

/-- R142: whatever the word, execution completes it. -/
theorem executeWord_completes (c : Params Ext) (w : Word) :
    (executeWord c w b).pending = none ∧ (executeWord c w b).status.busy = false ∧
      (executeWord c w b).status.done = true ∧ (executeWord c w b).ie = b.ie := by
  rcases executeWord_cases b c w with ⟨code, hfail⟩ | ⟨i, b', -, hdone, h, -⟩
  · rw [hfail]
    exact ⟨rfl, rfl, rfl, rfl⟩
  · rw [hdone]
    exact ⟨rfl, rfl, rfl, h.ie⟩

end Blocks

end Sys2Proof.Machine

/-! CERTIFICATE. irq (R55, R286, R287). -/

namespace Sys2Proof.Machine

variable {Ext : Type}

theorem irq_of_kept {b b' : Block Ext} (h : irq b' = true) (hdone : b'.status.done = true → b.status.done = true)
    (hie : b'.ie = b.ie) : irq b = true := by
  simp only [irq, hie, Bool.and_eq_true] at h ⊢
  exact h.imp_left hdone

/-- R287: of the register writes only CTRL's raises irq. -/
theorem irq_writeReg {b : Block Ext} {r : Reg} {v : Word} (h : irq (writeReg b r v) = true) :
    irq b = true ∨ (r = .ctrl ∧ v.getLsbD 0 = true) := by
  rcases writeReg_cases b r v with hw | hw | hw | ⟨hr, hw⟩ | hw | hw <;> rw [hw] at h
  · exact .inl (irq_of_kept h id rfl)
  · exact .inl (irq_of_kept h nofun rfl)
  · exact .inl (irq_of_kept h (fun hdone => (Bool.and_eq_true_iff.1 hdone).1) rfl)
  · exact .inr ⟨hr, (Bool.and_eq_true_iff.1 h).2⟩
  · exact .inl (irq_of_kept h id rfl)
  · obtain ⟨-, hstatus, hie, -⟩ := storeOperand_keeps b r v
    exact .inl (irq_of_kept h (fun hdone => hstatus ▸ hdone) hie)

/-- Settles O52: of a step's possible effects on the block, only a completion and a CTRL write raise irq. -/
theorem irqRisesByCompletionOrCtrlWrite : Obligations.IrqRisesByCompletionOrCtrlWrite := by
  refine ⟨fun _ => rfl, fun s t hstep hlow hhigh => ?_, fun s t w hp hstep => ?_⟩
  · rcases step_cases hstep with h | ⟨w, hp, h⟩ | ⟨off, v, rest, hs, h⟩ | h
    · rw [h, hlow] at hhigh
      exact absurd hhigh Bool.false_ne_true
    · obtain ⟨hpending, -, hdone, -⟩ := executeWord_completes s.toBlock Config.params w
      rw [← h] at hpending hdone
      exact .inl ⟨by simp [hp], hpending, hdone⟩
    · rw [h] at hhigh
      obtain ⟨hr, hv⟩ := (irq_writeReg hhigh).resolve_left (Bool.eq_false_iff.1 hlow)
      exact .inr ⟨off, v, rest, hs, hr, hv⟩
    · rw [h] at hhigh
      exact absurd hhigh Bool.false_ne_true
  · rw [engineStep_pending hp] at hstep
    obtain rfl := Host.Outcome.next.inj hstep
    obtain ⟨-, -, hdone, hie⟩ := executeWord_completes s.toBlock Config.params w
    simp only [irq, hdone, hie, Bool.true_and]

end Sys2Proof.Machine

/-! CERTIFICATE. Every step keeps the machine's invariant (R48, R50, R57, R140 to R144): a step changes the block in one
of a few ways, and PV changes with commands only, by a function of PV alone. -/

namespace Sys2Proof.Machine

section PointInvariant

/-- `PointInv`, of PV. -/
def PvInv (pv : Nat → Bool) : Prop :=
  (∀ j < 8, pv j = pv 0) ∧ (pv 0 = true → pv 8 = true ∧ pv 9 = true) ∧ (pv 12 = true ∨ pv 13 = true → pv 0 = true)

variable {pv : Nat → Bool} {ps : List Nat}

theorem pvInv_empty : PvInv fun _ => false := ⟨fun _ _ => rfl, nofun, nofun⟩

/-- A whole table built from E0 and E1 (R50). -/
theorem pvInv_of_table (htable : ∀ j < 8, pv j = true) (h8 : pv 8 = true) (h9 : pv 9 = true) : PvInv pv :=
  ⟨fun j hj => (htable j hj).trans (htable 0 (by decide)).symm, fun _ => ⟨h8, h9⟩, fun _ => htable 0 (by decide)⟩

/-- Filling point registers outside the table keeps the invariant, X and Y where the table is full. -/
theorem PvInv.fill (h : PvInv pv) (hps : ∀ n ∈ ps, 8 ≤ n) (hxy : 12 ∈ ps ∨ 13 ∈ ps → pv 0 = true) :
    PvInv fun n => pv n || decide (n ∈ ps) := by
  obtain ⟨htable, hbases, hfrom⟩ := h
  have hlow : ∀ j < 8, decide (j ∈ ps) = false := fun j hj => decide_eq_false fun hmem => absurd (hps j hmem) (by omega)
  refine ⟨fun j hj => ?_, fun h0 => ?_, fun hx => ?_⟩
  · simp [hlow j hj, hlow 0 (by decide), htable j hj]
  · simp only [hlow 0 (by decide), Bool.or_false] at h0
    obtain ⟨h8, h9⟩ := hbases h0
    simp [h8, h9]
  · simp only [hlow 0 (by decide), Bool.or_false]
    simp only [Bool.or_eq_true, decide_eq_true_eq] at hx
    rcases hx with (hx | hx) | (hx | hx)
    · exact hfrom (.inl hx)
    · exact hxy (.inl hx)
    · exact hfrom (.inr hx)
    · exact hxy (.inr hx)

theorem baseReg_mem_bounds {e : BitVec 2} {n : Nat} (hn : n ∈ [baseReg e]) : 8 ≤ n ∧ n < 12 := by
  rw [List.mem_singleton.1 hn, baseReg]
  omega

/-- The PV a command leaves meets the invariant where the PV it found does (R48, R50, R144). -/
theorem PvInv.after (h : PvInv pv) (i : Instr) (hr : (reads i).all pv = true) : PvInv (validAfter i pv) := by
  have hreads := List.all_eq_true.1 hr
  have ⟨_, _, hfrom⟩ := h
  cases i with
  | mul | mulGen | simul | scrub => exact pvInv_empty
  | gent2 | gent4 =>
    have h8 := hreads 8 (by decide)
    have h9 := hreads 9 (by decide)
    exact pvInv_of_table (fun j hj => by simp [validAfter, dropsPoints, pointsWritten, hj])
      (by simp [validAfter, dropsPoints, h8]) (by simp [validAfter, dropsPoints, h9])
  | base e phi src =>
    refine h.fill (ps := [baseReg e]) (fun n hn => (baseReg_mem_bounds hn).1) fun hxy => ?_
    rcases hxy with hx | hy
    · exact absurd (baseReg_mem_bounds hx).2 (by decide)
    · exact absurd (baseReg_mem_bounds hy).2 (by decide)
  | sel2 idx d | sel4 idx d =>
    exact h.fill (ps := [destReg d]) (by cases d <;> decide) fun _ => hreads 0 List.mem_cons_self
  | ladder2 | ladder4 => exact h.fill (ps := [12, 13]) (by decide) fun _ => hreads 0 (by decide)
  | dbl | add | correct | cofactor =>
    exact h.fill (ps := [12]) (by decide) fun _ => hfrom (.inl (hreads 12 (by decide)))
  | nop | mask s | decomp s | recode2 | recode4 | affine psrc => exact h.fill (ps := []) nofun nofun

end PointInvariant

section BlockInvariant

/-- `MachineInv`, of the block. -/
def BlockInv {Ext : Type} (b : Block Ext) : Prop :=
  (b.pending.isSome = b.status.busy ∧
    (b.status.busy = true → b.status.done = false ∧ b.status.ecode = .ok ∧ b.pending = some b.cmd)) ∧
  PvInv b.valid

theorem machineInv_iff (s : State) : MachineInv s ↔ BlockInv s.toBlock := Iff.rfl

variable {Ext : Type} {b b' : Block Ext}

theorem blockInv_reset : BlockInv (Block.reset : Block Ext) := by
  have hvalid : (Block.reset : Block Ext).valid = fun _ => false := funext (dropPoints_valid Block.reset)
  refine ⟨⟨rfl, nofun⟩, ?_⟩
  rw [hvalid]
  exact pvInv_empty

/-- A completed command: only PV is left to show. -/
theorem blockInv_finish (code : ECode) (h : PvInv b.valid) : BlockInv (finish code b) := ⟨⟨rfl, nofun⟩, h⟩

/-- An update of the status bits beside BUSY and ECODE that does not set DONE, and of registers the invariant does not
speak of. -/
theorem BlockInv.of_kept (h : BlockInv b) (hcmd : b'.cmd = b.cmd) (hpending : b'.pending = b.pending)
    (hbusy : b'.status.busy = b.status.busy) (hecode : b'.status.ecode = b.status.ecode)
    (hdone : b.status.done = false → b'.status.done = false) (hpr : b'.pr = b.pr) : BlockInv b' := by
  obtain ⟨⟨hpend, hlife⟩, hpv⟩ := h
  have hvalid : b'.valid = b.valid := funext fun n => congrArg Option.isSome (point_congr hpr n)
  refine ⟨⟨by rw [hpending, hbusy, hpend], fun hb => ?_⟩, hvalid ▸ hpv⟩
  obtain ⟨hd, he, hp⟩ := hlife (hbusy ▸ hb)
  exact ⟨hdone hd, hecode.trans he, by rw [hpending, hcmd, hp]⟩

theorem BlockInv.writeReg (h : BlockInv b) (r : Reg) (v : Word) : BlockInv (writeReg b r v) := by
  have ⟨_, hpv⟩ := h
  rcases writeReg_cases b r v with hw | hw | hw | ⟨-, hw⟩ | hw | hw <;> rw [hw]
  · exact h.of_kept rfl rfl rfl rfl id rfl
  · exact ⟨⟨rfl, fun _ => ⟨rfl, rfl, rfl⟩⟩, hpv⟩
  · exact h.of_kept rfl rfl rfl rfl (fun hdone => by simp [statusAfterWrite, hdone]) rfl
  · exact h.of_kept rfl rfl rfl rfl id rfl
  · exact h.of_kept rfl rfl rfl rfl id rfl
  · obtain ⟨hcmd, hstatus, -, hpending, -, hpr⟩ := storeOperand_keeps b r v
    exact h.of_kept hcmd hpending (by rw [hstatus]) (by rw [hstatus]) (fun hdone => hstatus ▸ hdone) hpr

theorem BlockInv.executeWord (h : BlockInv b) (c : Params Ext) (w : Word) : BlockInv (executeWord c w b) := by
  obtain ⟨-, hpv⟩ := h
  rcases executeWord_cases b c w with ⟨code, hfail⟩ | ⟨i, b', hr, hdone, -, hvalid⟩
  · rw [hfail]
    exact blockInv_finish code hpv
  · rw [hdone]
    exact blockInv_finish .ok (hvalid ▸ hpv.after i hr)

end BlockInvariant

/-- Settles O48: each way a step can change the block keeps the invariant. -/
theorem everyStepKeepsInvariant : Obligations.EveryStepKeepsInvariant := by
  intro s t hinv hstep
  rw [machineInv_iff] at hinv ⊢
  rcases step_cases hstep with h | ⟨w, -, h⟩ | ⟨off, v, rest, -, h⟩ | h <;> rw [h]
  · exact hinv
  · exact hinv.executeWord Config.params w
  · exact hinv.writeReg (regAt off) v
  · exact blockInv_reset

end Sys2Proof.Machine

/-! CERTIFICATE. Two runs that differ only in secrets (R49, R145, R147, R232): each operation takes blocks that agree on
what is public to blocks that agree so again. -/

namespace Sys2Proof.Machine

section PublicView

/-- Two blocks agree on all that is not secret. -/
structure PublicEq {Ext : Type} (b b' : Block Ext) : Prop where
  cmd : b.cmd = b'.cmd
  status : b.status = b'.status
  ie : b.ie = b'.ie
  pending : b.pending = b'.pending
  trace : b.trace = b'.trace
  valid : b.valid = b'.valid

theorem samePublic_iff (s s' : State) : SamePublic s s' ↔ PublicEq s.toBlock s'.toBlock ∧ s.drawn = s'.drawn := by
  constructor
  · rintro ⟨hcmd, hstatus, hie, hpending, htrace, hdrawn, hvalid⟩
    exact ⟨⟨hcmd, hstatus, hie, hpending, htrace, funext hvalid⟩, hdrawn⟩
  · rintro ⟨⟨hcmd, hstatus, hie, hpending, htrace, hvalid⟩, hdrawn⟩
    exact ⟨hcmd, hstatus, hie, hpending, htrace, hdrawn, congrFun hvalid⟩

variable {Ext : Type} {b b' : Block Ext}

theorem PublicEq.fail (h : PublicEq b b') (code : ECode) : PublicEq (fail code b) (fail code b') :=
  { h with
    status := by rw [fail_status, fail_status, h.status]
    pending := rfl
    trace := rfl }

/-- A command ends both runs with the same code, and leaves the trace its rule lists in both. -/
theorem PublicEq.execute (h : PublicEq b b') (c : Params Ext) (i : Instr) :
    PublicEq (execute c i b) (execute c i b') := by
  cases hw : wellFormed i
  · rw [Machine.execute, Machine.execute, executeInstr_field hw, executeInstr_field hw]
    exact h.fail .field
  · cases hr : (reads i).all b.valid
    · rw [Machine.execute, Machine.execute, executeInstr_uninit hw hr, executeInstr_uninit hw (h.valid ▸ hr)]
      exact h.fail .uninit
    · obtain ⟨b1, hdone, h1, hvalid⟩ := execute_completes (c := c) hw hr
      obtain ⟨b1', hdone', h1', hvalid'⟩ := execute_completes (c := c) hw (h.valid ▸ hr)
      obtain ⟨-, -, -, -, hcmd⟩ := h1.input_eq (inputRegs_notMem_regsWritten i)
      obtain ⟨-, -, -, -, hcmd'⟩ := h1'.input_eq (inputRegs_notMem_regsWritten i)
      rw [hdone, hdone']
      exact
        { cmd := hcmd.trans (h.cmd.trans hcmd'.symm)
          status := by
            rw [h1.finish_status, h1'.finish_status, clearTrace_status, clearTrace_status, h.status]
          ie := h1.ie.trans (h.ie.trans h1'.ie.symm)
          pending := rfl
          trace := h1.trace.trans h1'.trace.symm
          valid := hvalid.trans ((congrArg (validAfter i) h.valid).trans hvalid'.symm) }

theorem PublicEq.executeWord (h : PublicEq b b') (c : Params Ext) (w : Word) :
    PublicEq (executeWord c w b) (executeWord c w b') := by
  unfold Machine.executeWord
  cases decode w with
  | cmd i => exact h.execute c i
  | illegal why => exact h.fail .illegal
  | fieldErr why => exact h.fail .field

/-- An operand write touches nothing public. -/
theorem publicEq_storeOperand (b : Block Ext) (r : Reg) (v : Word) : PublicEq (storeOperand b r v) b := by
  obtain ⟨hcmd, hstatus, hie, hpending, htrace, hpr⟩ := storeOperand_keeps b r v
  exact ⟨hcmd, hstatus, hie, hpending, htrace, funext fun n => congrArg Option.isSome (point_congr hpr n)⟩

theorem PublicEq.symm (h : PublicEq b b') : PublicEq b' b :=
  ⟨h.cmd.symm, h.status.symm, h.ie.symm, h.pending.symm, h.trace.symm, h.valid.symm⟩

theorem PublicEq.trans {b'' : Block Ext} (h : PublicEq b b') (h' : PublicEq b' b'') : PublicEq b b'' :=
  ⟨h.cmd.trans h'.cmd, h.status.trans h'.status, h.ie.trans h'.ie, h.pending.trans h'.pending, h.trace.trans h'.trace,
    h.valid.trans h'.valid⟩

theorem PublicEq.writeReg_operand (h : PublicEq b b') {r : Reg} (hr : isOperand r = true) (v v' : Word) :
    PublicEq (writeReg b r v) (writeReg b' r v') := by
  rw [Machine.writeReg_operand b hr, Machine.writeReg_operand b' hr, ← h.status]
  cases b.status.busy
  · exact (publicEq_storeOperand b r v).trans (h.trans (publicEq_storeOperand b' r v').symm)
  · exact { h with status := congrArg (fun t => { t with werr := true }) h.status }

theorem PublicEq.writeReg (h : PublicEq b b') (r : Reg) (v : Word) : PublicEq (writeReg b r v) (writeReg b' r v) := by
  cases hr : isOperand r
  · cases r with
    | cmd =>
      simp only [Machine.writeReg, ← h.status]
      cases b.status.busy
      · exact { h with
          cmd := rfl
          status := congrArg (fun t => { t with busy := true, done := false, ecode := .ok }) h.status
          pending := rfl }
      · exact { h with status := congrArg (fun t => { t with cerr := true }) h.status }
    | status => exact { h with status := congrArg (statusAfterWrite · v) h.status }
    | ctrl => exact { h with ie := rfl }
    | pvalid | rx | ry | reserved => exact h
    | ka | kb | uLo | uHi | sgn | px | py | qx | qy => exact absurd hr.symm Bool.false_ne_true
  · exact h.writeReg_operand hr v v

end PublicView

section TwoRuns

/-- Two outcomes that are the same to an observer: next states that agree on all that is not secret, with schedules of
one shape, or one fault. -/
inductive SameOutcome : Host.Outcome State Fault Refusal → Host.Outcome State Fault Refusal → Prop
  | next {t t' : State} (h : SamePublic t t') (hs : List.Forall₂ SameShape t.schedule t'.schedule) :
      SameOutcome (.next t) (.next t')
  | fault (f : Fault) : SameOutcome (.fault f) (.fault f)

variable {s s' : State}

theorem sameShape_cases {e e' : Event} (h : SameShape e e') :
    e = e' ∨ ∃ off bytes v v', e = .write off bytes v ∧ e' = .write off bytes v' ∧ isOperand (regAt off) = true := by
  cases e with
  | write off bytes v =>
    cases e' with
    | write off' bytes' v' =>
      obtain ⟨rfl, rfl, hop | rfl⟩ := h
      · exact .inr ⟨off, bytes, v, v', rfl, rfl, hop⟩
      · exact .inl rfl
    | _ => exact .inl h
  | _ => exact .inl h

theorem sameOutcome_engineStep (h : SamePublic s s') (hs : List.Forall₂ SameShape s.schedule s'.schedule) :
    SameOutcome (engineStep s) (engineStep s') := by
  obtain ⟨hb, hdrawn⟩ := (samePublic_iff s s').1 h
  cases hp : s.pending with
  | none =>
    rw [engineStep_idle hp, engineStep_idle (hb.pending ▸ hp)]
    exact .next h hs
  | some w =>
    rw [engineStep_pending hp, engineStep_pending (hb.pending ▸ hp)]
    exact .next ((samePublic_iff _ _).2 ⟨hb.executeWord Config.params w, hdrawn⟩) hs

theorem sameOutcome_hostRead (h : SamePublic s s') (hs : List.Forall₂ SameShape s.schedule s'.schedule)
    (off : BitVec 12) (bytes : Nat) : SameOutcome (hostRead off bytes s) (hostRead off bytes s') := by
  obtain ⟨hb, hdrawn⟩ := (samePublic_iff s s').1 h
  unfold hostRead
  rw [← hb.status]
  split
  · split
    · exact .next ((samePublic_iff _ _).2 ⟨hb, congrArg (· + 1) hdrawn⟩) hs
    · exact .next ((samePublic_iff _ _).2 ⟨hb, hdrawn⟩) hs
  · exact .fault _

theorem sameOutcome_hostWrite (h : SamePublic s s') (hs : List.Forall₂ SameShape s.schedule s'.schedule)
    (off : BitVec 12) (bytes : Nat) {v v' : Word} (hv : ∀ {b b' : Block Config.Ext}, PublicEq b b' →
      PublicEq (writeReg b (regAt off) v) (writeReg b' (regAt off) v')) :
    SameOutcome (hostWrite off bytes v s) (hostWrite off bytes v' s') := by
  obtain ⟨hb, hdrawn⟩ := (samePublic_iff s s').1 h
  unfold hostWrite
  split
  · exact .next ((samePublic_iff _ _).2 ⟨hv hb, hdrawn⟩) hs
  · exact .fault _

theorem sameOutcome_stepEvent (h : SamePublic s s') (hs : List.Forall₂ SameShape s.schedule s'.schedule) {e e' : Event}
    (he : SameShape e e') : SameOutcome (stepEvent e s) (stepEvent e' s') := by
  rcases sameShape_cases he with rfl | ⟨off, bytes, v, v', rfl, rfl, hop⟩
  · cases e with
    | read off bytes => exact sameOutcome_hostRead h hs off bytes
    | write off bytes v => exact sameOutcome_hostWrite h hs off bytes fun hb => hb.writeReg (regAt off) v
    | engine => exact sameOutcome_engineStep h hs
    | reset =>
      obtain ⟨-, hdrawn⟩ := (samePublic_iff s s').1 h
      exact .next ((samePublic_iff _ _).2 ⟨⟨rfl, rfl, rfl, rfl, rfl, rfl⟩, hdrawn⟩) hs
  · exact sameOutcome_hostWrite h hs off bytes fun hb => hb.writeReg_operand hop v v'

theorem sameOutcome_step (h : SamePublic s s') (hs : List.Forall₂ SameShape s.schedule s'.schedule) :
    SameOutcome (step s) (step s') := by
  unfold step
  cases hsched : s.schedule with
  | nil =>
    rw [hsched] at hs
    rw [List.forall₂_nil_left_iff.1 hs]
    exact sameOutcome_engineStep h (by rw [hsched, List.forall₂_nil_left_iff.1 hs]; exact .nil)
  | cons e rest =>
    rw [hsched] at hs
    obtain ⟨e', rest', he, hrest, hsched'⟩ := List.forall₂_cons_left_iff.1 hs
    rw [hsched']
    exact sameOutcome_stepEvent (s := { s with schedule := rest }) (s' := { s' with schedule := rest' }) h hrest he

end TwoRuns

/-- Settles O50: whoever moves, and whatever the secrets, both runs have one outcome. -/
theorem secretsDoNotReachPublicState : Obligations.SecretsDoNotReachPublicState := by
  intro s s' h hs
  have hout := sameOutcome_step h hs
  generalize step s = o, step s' = o' at hout ⊢
  cases hout with
  | next htt' hschedule =>
    refine ⟨fun t ht => ?_, fun _ hf => nomatch hf⟩
    obtain rfl := Host.Outcome.next.inj ht
    exact ⟨_, rfl, htt', hschedule⟩
  | fault f => exact ⟨fun _ ht => (nomatch ht), fun _ hf => hf⟩

end Sys2Proof.Machine

/-! SUPPORT. The window's map in both directions (R81), its words (R82) and its address decoder (R80); what an access
that is not admitted, an aligned read, and a write to a read-only register or a reserved offset do (R85 to R88, R91). -/

namespace Sys2Proof.Machine

section WindowMap

theorem regAt_of_regOffset {r : Reg} {off : BitVec 12} (h : regOffset r = some off) :
    regAt off = r ∧ off.toNat % 8 = 0 ∧ r ≠ .reserved := by
  cases r with
  | reserved => nomatch h
  | cmd | status | ctrl | pvalid | sgn =>
    obtain rfl := Option.some.inj h
    decide
  | ka j | kb j | uLo j | uHi j | px j | py j | qx j | qy j | rx j | ry j =>
    obtain rfl := Option.some.inj h
    revert j
    decide

/-- No register stands beyond the printed map. -/
theorem regOfIndex_of_ge {k : Nat} (hk : 56 ≤ k) : regOfIndex k = .reserved := by
  unfold regOfIndex
  repeat rw [if_neg (by omega)]

theorem regOfIndex_of_hole : ∀ k < 56, (4 ≤ k ∧ k < 8) ∨ (25 ≤ k ∧ k < 32) → regOfIndex k = .reserved := by decide

theorem regOffset_regOfIndex : ∀ k < 56, regOfIndex k ≠ .reserved →
    regOffset (regOfIndex k) = some (BitVec.ofNat 12 (8 * k)) := by decide

theorem regOffset_regAt {off : BitVec 12} (ha : off.toNat % 8 = 0) (hr : regAt off ≠ .reserved) :
    regOffset (regAt off) = some off := by
  have hk : off.toNat / 8 < 56 := Nat.lt_of_not_le fun hk => hr (regOfIndex_of_ge hk)
  have hoff : BitVec.ofNat 12 (8 * (off.toNat / 8)) = off := by
    rw [Nat.mul_div_cancel' (Nat.dvd_of_mod_eq_zero ha), BitVec.ofNat_toNat, BitVec.setWidth_eq]
  rw [regAt, regOffset_regOfIndex _ hk hr, hoff]

theorem regAt_reserved {off : BitVec 12} (h : (0x020 ≤ off.toNat ∧ off.toNat ≤ 0x03F) ∨
    (0x0C8 ≤ off.toNat ∧ off.toNat ≤ 0x0FF) ∨ 0x1C0 ≤ off.toNat) : regAt off = .reserved := by
  by_cases hk : 56 ≤ off.toNat / 8
  · exact regOfIndex_of_ge hk
  · exact regOfIndex_of_hole _ (by omega) (by omega)

variable {Ext : Type}

theorem sub_eq_getElem (b : Block Ext) (e : Fin 4) : b.sub e = #v[b.u0, b.u1, b.u2, b.u3][e] := by
  fin_cases e <;> rfl

theorem windowOffset_eq_none_iff (c : Params Ext) (addr : Nat) :
    windowOffset c addr = none ↔ addr < c.baseAddr ∨ c.baseAddr + 4096 ≤ addr := by
  simp only [windowOffset, ite_eq_right_iff, reduceCtorEq, imp_false]
  omega

theorem eq_baseAddr_add_of_windowOffset {c : Params Ext} {addr : Nat} {off : BitVec 12}
    (h : windowOffset c addr = some off) : addr = c.baseAddr + off.toNat := by
  obtain ⟨⟨hlo, hhi⟩, hoff⟩ := Option.ite_none_right_eq_some.1 h
  obtain rfl := Option.some.inj hoff
  rw [BitVec.toNat_ofNat, Nat.mod_eq_of_lt (by omega)]
  omega

end WindowMap

section HostAccess

theorem admitted_eq_false {off : BitVec 12} {bytes : Nat} (h : bytes ≠ 8 ∨ off.toNat % 8 ≠ 0) :
    admitted off bytes = false := by
  rw [admitted, Bool.and_eq_false_iff, beq_eq_false_iff_ne, beq_eq_false_iff_ne]
  exact h

/-- R85, R88: an aligned read of eight bytes answers. -/
theorem hostRead_aligned {off : BitVec 12} (ha : off.toNat % 8 = 0) (s : State) :
    hostRead off 8 s =
      if s.status.busy && isData (regAt off) then
        .next { s with response := some (Config.busyRead s.drawn s.toBlock off), drawn := s.drawn + 1 }
      else .next { s with response := some (readReg s.toBlock (regAt off)) } := by
  simp [hostRead, admitted, ha]

/-- R91: every register but CMD, STATUS, CTRL and PVALID is a data register. -/
theorem isData_eq_false_iff (r : Reg) : isData r = false ↔ r ∈ [Reg.cmd, .status, .ctrl, .pvalid, .reserved] := by
  cases r <;> simp [isData]

/-- R86, R87: PVALID, RX, RY and the reserved offsets ignore writes. -/
theorem writeReg_readOnly {Ext : Type} (b : Block Ext) {r : Reg}
    (hr : r = .pvalid ∨ (∃ j, r = .rx j) ∨ (∃ j, r = .ry j) ∨ r = .reserved) (v : Word) : writeReg b r v = b := by
  obtain rfl | ⟨j, rfl⟩ | ⟨j, rfl⟩ | rfl := hr <;> rfl

end HostAccess

end Sys2Proof.Machine

/-! CERTIFICATE. The register window: its map, the admitted accesses, reads, and writes that store nothing (R80 to R82,
R85 to R88, R90, R91). -/

namespace Sys2Proof.Machine

/-- Settles O53: the map's entries are the offsets of the registers, and no index of the map leads elsewhere. -/
theorem windowMapIsAsPrinted : Obligations.WindowMapIsAsPrinted := by
  have hat {r : Reg} {off : BitVec 12} (h : regOffset r = some off) : regAt off = r := (regAt_of_regOffset h).1
  refine ⟨⟨hat rfl, hat rfl, hat rfl, hat rfl, hat rfl⟩, fun j => ?_, fun off => regAt_reserved, fun r off => ?_,
    fun Ext b j => ?_, fun Ext c addr => ⟨fun off => eq_baseAddr_add_of_windowOffset, windowOffset_eq_none_iff c addr⟩⟩
  · exact ⟨hat rfl, hat rfl, hat rfl, hat rfl, hat rfl, hat rfl, hat rfl, hat rfl, hat rfl, hat rfl⟩
  · refine ⟨regAt_of_regOffset, ?_⟩
    rintro ⟨rfl, ha, hr⟩
    exact regOffset_regAt ha hr
  · rw [← sub_eq_getElem]
    exact ⟨rfl, rfl, rfl, rfl, rfl, rfl, rfl, rfl, rfl, rfl⟩

/-- Settles O55: a draw, or the register's value, according to BUSY and the kind of register. -/
theorem readsReturnAndChangeNothing : Obligations.ReadsReturnAndChangeNothing := by
  intro s off ha
  rw [hostRead_aligned ha]
  simp only [← isData_eq_false_iff]
  cases hdraw : s.status.busy && isData (regAt off)
  · refine ⟨_, rfl, rfl, rfl, fun _ => ⟨rfl, rfl⟩, fun hbusy hdata => ?_⟩
    rw [hbusy, Bool.true_and] at hdraw
    exact absurd hdraw hdata
  · obtain ⟨hbusy, hdata⟩ := Bool.and_eq_true_iff.1 hdraw
    refine ⟨_, rfl, rfl, rfl, fun hcur => ?_, fun _ _ => ⟨rfl, _, rfl⟩⟩
    simp [hbusy, hdata] at hcur

/-- Settles O54, from what is admitted. -/
theorem nonAdmittedAccessFaults : Obligations.NonAdmittedAccessFaults := by
  intro s off bytes v
  refine ⟨fun h => ?_, ?_⟩
  · simp [hostRead, hostWrite, admitted_eq_false h]
  · rintro rfl ha
    obtain ⟨t, ht, -⟩ := readsReturnAndChangeNothing s off ha
    exact ⟨⟨t, ht⟩, ⟨_, hostWrite_aligned ha v s⟩⟩

/-- Settles O57. -/
theorem busyOperandWriteDropped : Obligations.BusyOperandWriteDropped := by
  intro s off v ha hop hbusy
  refine ⟨_, hostWrite_aligned ha v s, ?_⟩
  rw [writeReg_operand s.toBlock hop v, if_pos hbusy]
  rfl

/-- Settles O58. -/
theorem readOnlyAndReservedIgnoreWrites : Obligations.ReadOnlyAndReservedIgnoreWrites := by
  intro s off v ha hr
  refine ⟨_, hostWrite_aligned ha v s, writeReg_readOnly s.toBlock hr v, fun hres => ?_⟩
  rw [hres]
  rfl

end Sys2Proof.Machine

/-! SUPPORT. The opcode map as a whole (R111 to R115): the row a word matches, the operand bits each row leaves free, and
what the decoder answers for a word that matches a row and for one that matches none (R120). -/

namespace Sys2Proof

section Rows

/-- R114: "A command matches a row when (word AND mask) = match". -/
structure MatchesRow (w : Word) (r : OpRow) : Prop where
  mem : r ∈ opTable
  masked : w &&& r.mask = r.pattern

/-- No two rows share an OPC. -/
theorem rowOf_opc : ∀ r ∈ opTable, rowOf r.opc = some r := by decide

theorem opc_of_rowOf {opc : BitVec 8} {r : OpRow} (h : rowOf opc = some r) : r ∈ opTable ∧ r.opc = opc :=
  ⟨List.mem_of_find?_eq_some h, by simpa using List.find?_some h⟩

/-- R114: which OPC values are assigned. -/
theorem opc_assigned : ∀ r ∈ opTable, r.opc.toNat < 5 ∨ r.opc.toNat = 8 ∨ (16 ≤ r.opc.toNat ∧ r.opc.toNat < 31) := by
  decide

/-- Every mask covers OPC and the reserved bits of R112, and every match has its OPC there and 0 in the reserved bits. -/
theorem mask_covers : ∀ r ∈ opTable,
    (r.mask.extractLsb' 27 37 = BitVec.allOnes 37 ∧ r.pattern.extractLsb' 27 37 = 0#37) ∧
    (r.mask.getLsbD 15 = true ∧ r.pattern.getLsbD 15 = false) ∧
    (fieldOpc r.mask = BitVec.allOnes 8 ∧ fieldOpc r.pattern = r.opc) := by decide

variable {w : Word} {r r' : OpRow}

/-- A word that matches a row has the row's OPC, and no reserved bit (R112). -/
theorem MatchesRow.fields (h : MatchesRow w r) :
    w.extractLsb' 27 37 = 0#37 ∧ w.getLsbD 15 = false ∧ fieldOpc w = r.opc := by
  obtain ⟨⟨hmask, hpattern⟩, ⟨hmask15, hpattern15⟩, hmaskOpc, hpatternOpc⟩ := mask_covers r h.mem
  rw [← h.masked] at hpattern hpattern15 hpatternOpc
  refine ⟨?_, ?_, ?_⟩
  · rwa [BitVec.extractLsb'_and, hmask, BitVec.and_allOnes] at hpattern
  · rwa [BitVec.getLsbD_and, hmask15, Bool.and_true] at hpattern15
  · rwa [fieldOpc, BitVec.extractLsb'_and, ← fieldOpc, ← fieldOpc, hmaskOpc, BitVec.and_allOnes] at hpatternOpc

theorem MatchesRow.rowOf_eq (h : MatchesRow w r) : rowOf (fieldOpc w) = some r := by
  obtain ⟨-, -, hopc⟩ := h.fields
  rw [hopc, rowOf_opc r h.mem]

/-- R114: "No two rows match the same word". -/
theorem MatchesRow.unique (h : MatchesRow w r) (h' : MatchesRow w r') : r = r' :=
  Option.some.inj (h.rowOf_eq.symm.trans h'.rowOf_eq)

/-- The decoder's last two tests are `wellFormed` of the command the row names (R116). -/
theorem decode_of_matchesRow (h : MatchesRow w r) :
    (wellFormed (instrOf w r.op) = true → decode w = .cmd (instrOf w r.op)) ∧
    (wellFormed (instrOf w r.op) = false → ∃ why, decode w = .fieldErr why) := by
  obtain ⟨hhigh, h15, -⟩ := h.fields
  unfold decode
  rw [hhigh, h15, h.rowOf_eq]
  cases hop : r.op with
  | BASE => by_cases hsrc : fieldAs w = 3#2 <;> simp [hop, h.masked, instrOf, wellFormed, hsrc]
  | AFFINE => by_cases hpsrc : fieldPsrc w < 14#4 <;> simp [hop, h.masked, instrOf, wellFormed, hpsrc, ← BitVec.not_lt]
  | _ => simp [hop, h.masked, instrOf, wellFormed]

/-- R112, R113, R115: a word that matches no row is Illegal. -/
theorem decode_of_not_matchesRow (h : ∀ r, ¬MatchesRow w r) : ∃ why, decode w = .illegal why := by
  unfold decode
  split
  · exact ⟨_, rfl⟩
  · cases hr : rowOf (fieldOpc w) with
    | none => exact ⟨_, rfl⟩
    | some r =>
      have hne : w &&& r.mask ≠ r.pattern := fun hmasked => h r ⟨(opc_of_rowOf hr).1, hmasked⟩
      exact ⟨.unusedField, by simp [hne]⟩

theorem matchesRow_of_decode_cmd {i : Instr} (h : decode w = .cmd i) :
    ∃ r, MatchesRow w r ∧ i = instrOf w r.op ∧ wellFormed i = true := by
  by_cases hrow : ∃ r, MatchesRow w r
  · obtain ⟨r, hr⟩ := hrow
    obtain ⟨hcmd, hfield⟩ := decode_of_matchesRow hr
    cases hw : wellFormed (instrOf w r.op)
    · obtain ⟨why, hwhy⟩ := hfield hw
      rw [hwhy] at h
      nomatch h
    · obtain rfl := Decoded.cmd.inj ((hcmd hw).symm.trans h)
      exact ⟨r, hr, rfl, hw⟩
  · obtain ⟨why, hwhy⟩ := decode_of_not_matchesRow (not_exists.1 hrow)
    rw [hwhy] at h
    nomatch h

theorem decode_illegal_iff : (∃ why, decode w = .illegal why) ↔ ∀ r, ¬MatchesRow w r := by
  refine ⟨fun ⟨why, hwhy⟩ r hr => ?_, decode_of_not_matchesRow⟩
  obtain ⟨hcmd, hfield⟩ := decode_of_matchesRow hr
  cases hw : wellFormed (instrOf w r.op)
  · obtain ⟨why', hwhy'⟩ := hfield hw
    nomatch hwhy.symm.trans hwhy'
  · nomatch hwhy.symm.trans (hcmd hw)

end Rows

section Encoder

/-- The opcode of a command. -/
def opcodeOf : Instr → Opcode
  | .nop => .NOP
  | .mask _ => .MASK
  | .mul => .MUL
  | .mulGen => .MUL_GEN
  | .simul => .SIMUL
  | .scrub => .SCRUB
  | .decomp _ => .DECOMP
  | .base _ _ _ => .BASE
  | .gent2 => .GENT2
  | .gent4 => .GENT4
  | .recode2 => .RECODE2
  | .recode4 => .RECODE4
  | .sel2 _ _ => .SEL2
  | .sel4 _ _ => .SEL4
  | .ladder2 => .LADDER2
  | .ladder4 => .LADDER4
  | .dbl => .DBL
  | .add => .ADD
  | .correct => .CORRECT
  | .cofactor => .COFACTOR
  | .affine _ => .AFFINE

/-- The bits of the operand fields an opcode uses (R111, R114). -/
def operandBits : Opcode → Word
  | .MASK | .DECOMP => place (BitVec.allOnes 1) 21
  | .BASE => place (BitVec.allOnes 2) 22 ||| place (BitVec.allOnes 1) 24 ||| place (BitVec.allOnes 2) 25
  | .SEL2 | .SEL4 => place (BitVec.allOnes 7) 8 ||| place (BitVec.allOnes 1) 20
  | .AFFINE => place (BitVec.allOnes 4) 16
  | _ => 0

/-- A mask is 0 at the operand fields of its row and 1 elsewhere (R113, R114); the match is the row's command with every
operand 0. -/
theorem row_shape : ∀ r ∈ opTable,
    r.mask = ~~~operandBits r.op ∧ r.pattern = encode (instrOf 0 r.op) ∧ r.pattern &&& r.mask = r.pattern := by decide

theorem exists_row (op : Opcode) : ∃ r ∈ opTable, r.op = op := by cases op <;> decide

/-- A field put back at its place is the word under the field's bits. -/
theorem place_extractLsb' (w : Word) (lo n : Nat) :
    place (w.extractLsb' lo n) lo = w &&& place (BitVec.allOnes n) lo := by
  apply BitVec.eq_of_getLsbD_eq
  intro i hi
  by_cases hlo : i < lo
  · simp [place, hlo]
  · have hback : lo + (i - lo) = i := by omega
    simp [place, hlo, hback, hi, Bool.and_comm]

theorem ofBool_getLsbD (w : Word) (n : Nat) : BitVec.ofBool (w.getLsbD n) = w.extractLsb' n 1 := by
  apply BitVec.eq_of_getLsbD_eq
  intro i hi
  obtain rfl : i = 0 := by omega
  simp

theorem bitOfS_fieldS (w : Word) : bitOfS (fieldS w) = w.extractLsb' 21 1 := by
  rw [← ofBool_getLsbD, fieldS]
  cases w.getLsbD 21 <;> rfl

theorem bitOfD_fieldD (w : Word) : bitOfD (fieldD w) = w.extractLsb' 20 1 := by
  rw [← ofBool_getLsbD, fieldD]
  cases w.getLsbD 20 <;> rfl

/-- The command read from a word encodes to its opcode and the word's operand bits. -/
theorem encode_instrOf (w : Word) (op : Opcode) :
    encode (instrOf w op) = encode (instrOf 0 op) ||| (w &&& operandBits op) := by
  cases op with
  | MASK | DECOMP =>
    simp only [encode, instrOf, operandBits, bitOfS_fieldS, place_extractLsb']
    simp
  | BASE =>
    simp only [encode, instrOf, operandBits, fieldE, fieldPhi, fieldAs, ofBool_getLsbD, place_extractLsb',
      BitVec.and_or_distrib_left]
    simp [BitVec.or_assoc]
  | SEL2 | SEL4 =>
    simp only [encode, instrOf, operandBits, fieldIdx, bitOfD_fieldD, place_extractLsb', BitVec.and_or_distrib_left]
    simp [BitVec.or_assoc]
  | AFFINE =>
    simp only [encode, instrOf, operandBits, fieldPsrc, place_extractLsb']
    simp
  | _ => simp [encode, instrOf, operandBits]

/-- R118: each field of a command's word is the operand it was made of. -/
theorem instrOf_encode (i : Instr) : instrOf (encode i) (opcodeOf i) = i := by
  cases i with
  | mask s | decomp s => cases s <;> rfl
  | base e phi src => revert e phi src; decide
  | sel2 idx d | sel4 idx d => cases d <;> revert idx <;> decide
  | affine psrc => revert psrc; decide
  | _ => rfl

/-- R113, R114: a word matches a row exactly when it is the encoding of the command the row reads from it. -/
theorem matchesRow_iff_encode_instrOf {r : OpRow} (hr : r ∈ opTable) (w : Word) :
    MatchesRow w r ↔ encode (instrOf w r.op) = w := by
  obtain ⟨hmask, hpattern, hself⟩ := row_shape r hr
  rw [encode_instrOf, ← hpattern, ← BitVec.not_not (b := operandBits r.op), ← hmask]
  constructor
  · rintro ⟨-, hmasked⟩
    rw [← hmasked, ← BitVec.and_or_distrib_left, BitVec.or_not_self, BitVec.and_allOnes]
  · intro hword
    refine ⟨hr, ?_⟩
    rw [← hword, BitVec.and_or_distrib_right, hself, BitVec.and_assoc, BitVec.not_and_self]
    simp

/-- A command's word matches the row of its opcode, an ill-formed command's word too. -/
theorem encode_matchesRow (i : Instr) : ∃ r, MatchesRow (encode i) r ∧ instrOf (encode i) r.op = i := by
  obtain ⟨r, hr, hop⟩ := exists_row (opcodeOf i)
  have hfix : instrOf (encode i) r.op = i := hop ▸ instrOf_encode i
  exact ⟨r, (matchesRow_iff_encode_instrOf hr _).2 (congrArg encode hfix), hfix⟩

theorem decode_encode {i : Instr} (hw : wellFormed i = true) : decode (encode i) = .cmd i := by
  obtain ⟨r, hr, hfix⟩ := encode_matchesRow i
  have h := (decode_of_matchesRow hr).1
  rw [hfix] at h
  exact h hw

/-- R116: the word of an ill-formed command holds a reserved field value. -/
theorem decode_encode_illFormed {i : Instr} (hw : wellFormed i = false) : ∃ why, decode (encode i) = .fieldErr why := by
  obtain ⟨r, hr, hfix⟩ := encode_matchesRow i
  have h := (decode_of_matchesRow hr).2
  rw [hfix] at h
  exact h hw

end Encoder

end Sys2Proof

/-! CERTIFICATE. The command word: decoder and encoder (R111 to R125), and what the machine does with illegal words and
reserved field values (R112, R115, R116, R282). -/

namespace Sys2Proof.Machine

/-- Settles O1: the word matches the row of its opcode, and every field reads its operand back. -/
theorem decodeOfEncode : Obligations.DecodeOfEncode := fun _ => decode_encode

/-- Settles O2: only a word that matches a row decodes to a command, and then it is that command's encoding. -/
theorem encodeOfDecode : Obligations.EncodeOfDecode := by
  intro w i h
  obtain ⟨r, hr, rfl, hw⟩ := matchesRow_of_decode_cmd h
  exact ⟨hw, (matchesRow_iff_encode_instrOf hr.mem w).1 hr⟩

/-- Settles O3: a word that matches a row is never Illegal, and its OPC tells the row. -/
theorem wordsMatchAtMostOneRow : Obligations.WordsMatchAtMostOneRow := by
  refine ⟨fun w => ?_, fun w r hr r' hr' h h' => MatchesRow.unique ⟨hr, h⟩ ⟨hr', h'⟩⟩
  rw [decode_illegal_iff]
  exact ⟨fun h r hr hmasked => h r ⟨hr, hmasked⟩, fun h r hr => h r hr.mem hr.masked⟩

/-- Settles O4: the eleven commands are well formed and encode to the printed words. -/
theorem encodingExamples : Obligations.EncodingExamples := by
  intro p hp
  have hword : wellFormed p.2 = true ∧ encode p.2 = p.1 := by
    revert p
    decide
  exact ⟨hword.2, hword.2 ▸ decode_encode hword.1⟩

/-- R112, R113, R115: what makes a word illegal keeps it from matching any row. -/
theorem not_matchesRow_of_reserved {w : Word}
    (h : w.extractLsb' 27 37 ≠ 0#37 ∨ w.getLsbD 15 = true ∨
      (5 ≤ (fieldOpc w).toNat ∧ (fieldOpc w).toNat ≤ 7) ∨ (9 ≤ (fieldOpc w).toNat ∧ (fieldOpc w).toNat ≤ 15) ∨
      0x1F ≤ (fieldOpc w).toNat ∨ ∃ r ∈ opTable, r.opc = fieldOpc w ∧ w &&& r.mask ≠ r.pattern) (r : OpRow) :
    ¬MatchesRow w r := by
  intro hr
  obtain ⟨hhigh, h15, hopc⟩ := hr.fields
  have hassigned := opc_assigned r hr.mem
  rw [← hopc] at hassigned
  rcases h with h | h | h | h | h | ⟨r', hr', hopc', hne⟩
  · exact h hhigh
  · exact absurd (h15.symm.trans h) Bool.false_ne_true
  · omega
  · omega
  · omega
  · have hrow : rowOf (fieldOpc w) = some r' := hopc' ▸ rowOf_opc r' hr'
    obtain rfl : r = r' := Option.some.inj (hr.rowOf_eq.symm.trans hrow)
    exact hne hr.masked

/-- Settles O10: the word matches no row, so the decoder answers Illegal. -/
theorem illegalWordsReported : Obligations.IllegalWordsReported := by
  intro s w hp h
  obtain ⟨why, hwhy⟩ := decode_of_not_matchesRow (not_matchesRow_of_reserved h)
  rw [engineStep_pending hp, executeWord, hwhy]
  exact ⟨_, rfl, ⟨rfl, rfl⟩, frameExcept_fail .illegal s⟩

theorem wellFormed_eq_false_iff (i : Instr) :
    wellFormed i = false ↔ (∃ e phi, i = .base e phi 3) ∨ i = .affine 14 ∨ i = .affine 15 := by
  cases i with
  | base e phi src => simp [wellFormed]
  | affine psrc => simp only [wellFormed, Instr.affine.injEq]; revert psrc; decide
  | _ => simp [wellFormed]

/-- Settles O11: the engine and `exec` both turn the command away with E_FIELD. -/
theorem reservedFieldsReported : Obligations.ReservedFieldsReported := by
  refine ⟨wellFormed_eq_false_iff, fun s i hw hp => ?_⟩
  obtain ⟨why, hwhy⟩ := decode_encode_illFormed hw
  rw [engineStep_pending hp, executeWord, hwhy, exec_eq_execute, execute, executeInstr_field hw]
  exact ⟨_, rfl, rfl, ⟨rfl, rfl⟩, frameExcept_fail .field s⟩

end Sys2Proof.Machine

/-! CERTIFICATE. A pending command and the step that runs it (R120, R124, R140, R142, R143). -/

namespace Sys2Proof.Machine

theorem engineStep_of_decode_cmd {s : State} {w : Word} {i : Instr} (hp : s.pending = some w) (hd : decode w = .cmd i) :
    engineStep s = exec i s := by
  rw [engineStep_pending hp, executeWord, hd, exec_eq_execute]

/-- Settles O13: with no event left, or with the engine next, the step is the engine's. -/
theorem stepRunsDecodedCommand : Obligations.StepRunsDecodedCommand := by
  intro s w i hp hd
  refine ⟨fun hs => ?_, fun rest hs => ?_⟩
  · rw [step, hs]
    exact engineStep_of_decode_cmd hp hd
  · rw [step, hs]
    exact engineStep_of_decode_cmd (s := { s with schedule := rest }) hp hd

theorem run_succ_of_step {M : Host.Core} {s t : M.State} (h : M.step s = .next t) (k : Nat) :
    M.run (k + 1) s = M.run k t := by
  rw [Host.Core.run, h]

theorem core_run_succ {s t : State} (h : step s = .next t) (k : Nat) : core.run (k + 1) s = core.run k t :=
  run_succ_of_step (M := core) (s := s) (t := t) h k

/-- R140: a CMD write while idle is accepted. -/
theorem hostWrite_cmd_idle {s : State} (hidle : s.status.busy = false) (w : Word) :
    hostWrite 0x000 8 w s = .next { s with toBlock := accept w s.toBlock, response := none } := by
  have hwrite : writeReg s.toBlock .cmd w = accept w s.toBlock := by simp [writeReg, hidle]
  rw [← hwrite]
  exact hostWrite_aligned rfl w s

/-- R91: STATUS is no data register, so its read shows it whether or not the block is busy. -/
theorem hostRead_status (s : State) :
    hostRead 0x008 8 s = .next { s with response := some (statusWord s.status) } := by
  have hdata : isData (regAt 0x008) = false := by decide
  rw [hostRead_aligned rfl, hdata, Bool.and_false, if_neg Bool.false_ne_true]
  rfl

/-- R142: whatever the command, `exec` of it leaves an idle block. -/
theorem exec_idle (i : Instr) (s : State) :
    ∃ t, exec i s = .next t ∧ t.status.busy = false ∧ t.schedule = s.schedule := by
  rw [exec_eq_execute]
  refine ⟨_, rfl, ?_, rfl⟩
  rcases execute_cases Config.params i s.toBlock with ⟨code, hfail⟩ | ⟨-, b', hdone, -⟩
  · rw [hfail, fail_status]
  · rw [hdone, finish_status]

/-- Settles O15: the three events of ISSUE, one after another. -/
theorem issueRunsTheCommand : Obligations.IssueRunsTheCommand := by
  intro s i hw hidle
  obtain ⟨t, hexec, hdone, hsched⟩ :=
    exec_idle i { s with toBlock := accept (encode i) s.toBlock, schedule := rd .status, response := none }
  refine ⟨t, hexec, hdone, ?_⟩
  have hwrite : step { s with schedule := issue i } =
      .next { s with toBlock := accept (encode i) s.toBlock, schedule := poll, response := none } :=
    hostWrite_cmd_idle (s := { s with schedule := poll }) hidle (encode i)
  have hengine : step { s with toBlock := accept (encode i) s.toBlock, schedule := poll, response := none } =
      .next t := ((stepRunsDecodedCommand _ _ _ rfl (decode_encode hw)).2 _ rfl).trans hexec
  have hread : step t = .next { t with schedule := [], response := some (statusWord t.status) } := by
    rw [step, hsched]
    exact hostRead_status { t with schedule := [] }
  calc core.run 3 { s with schedule := issue i }
      = core.run 2 { s with toBlock := accept (encode i) s.toBlock, schedule := poll, response := none } :=
        core_run_succ hwrite 2
    _ = core.run 1 t := core_run_succ hengine 1
    _ = .next { t with schedule := [], response := some (statusWord t.status) } := core_run_succ hread 0

end Sys2Proof.Machine

/-! SUPPORT. The assembler's tokens (R123): words, commas and numbers, and what is read from the number of a form. -/

namespace Sys2Proof.Machine

section Tokens

/-- A character that stands in a token as it is: no blank, no comma, no small letter. -/
def isPlain (ch : Char) : Bool := ch != ' ' && ch != ',' && ch.toUpper == ch

/-- Plain characters are collected into the token under way. -/
theorem tokensFrom_plain {word : List Char} (h : word.all isPlain = true) (rest cur : List Char) :
    tokensFrom (word ++ rest) cur = tokensFrom rest (cur ++ word) := by
  induction word generalizing cur with
  | nil => simp
  | cons ch word ih =>
    simp only [List.all_cons, isPlain, Bool.and_eq_true, bne_iff_ne, beq_iff_eq] at h
    obtain ⟨⟨⟨hblank, hcomma⟩, hupper⟩, hword⟩ := h
    rw [List.cons_append, tokensFrom, if_neg hblank, if_neg hcomma, hupper, ih hword, List.append_assoc]
    rfl

theorem tokenOf_of_ne_nil {word : List Char} (h : word ≠ []) : tokenOf word = [word] := by
  simp [tokenOf, h]

theorem isPlain_of_isDigit {ch : Char} (h : ch.isDigit = true) : isPlain ch = true := by
  have hblank : ch ≠ ' ' := by rintro rfl; exact absurd h (by decide)
  have hcomma : ch ≠ ',' := by rintro rfl; exact absurd h (by decide)
  have hupper : ch.toUpper = ch := by
    obtain ⟨-, hle⟩ := Char.isDigit_iff_toNat.1 h
    refine dif_neg fun hsmall => ?_
    have hge : 'a'.toNat ≤ ch.toNat := hsmall.1
    exact absurd (hge.trans hle) (by decide)
  simp [isPlain, hblank, hcomma, hupper]

theorem isDigit_of_mem_digits {n : Nat} {ch : Char} (h : ch ∈ Nat.toDigits 10 n) : ch.isDigit = true :=
  Nat.isDigit_of_mem_toDigits (by decide) (by decide) h

/-- A number's digits read back as the number. -/
theorem decimal_toDigits (n : Nat) : decimal (Nat.toDigits 10 n) = some n := by
  have hdigits : (Nat.toDigits 10 n).all Char.isDigit = true := List.all_eq_true.2 fun _ => isDigit_of_mem_digits
  have hne : (Nat.toDigits 10 n).isEmpty = false := by simp [Nat.toDigits_ne_nil]
  rw [decimal, hdigits, hne]
  exact congrArg some Nat.ofDigitChars_ten_toDigits

theorem parseIndex_toDigits (idx : BitVec 7) : parseIndex (Nat.toDigits 10 idx.toNat) = some idx := by
  have hlt : idx.toNat < 128 := idx.isLt
  simp [parseIndex, decimalBelow, decimal_toDigits, Option.filter, hlt]

theorem tokensFrom_word_blank {word : List Char} (h : word.all isPlain = true) (hne : word ≠ []) (rest : List Char) :
    tokensFrom (word ++ ' ' :: rest) [] = word :: tokensFrom rest [] := by
  rw [tokensFrom_plain h, List.nil_append, tokensFrom, if_pos rfl, tokenOf_of_ne_nil hne, List.singleton_append]

theorem tokensFrom_word_comma {word : List Char} (h : word.all isPlain = true) (hne : word ≠ []) (rest : List Char) :
    tokensFrom (word ++ ',' :: rest) [] = word :: [','] :: tokensFrom rest [] := by
  rw [tokensFrom_plain h, List.nil_append, tokensFrom, if_neg (by decide), if_pos rfl, tokenOf_of_ne_nil hne,
    List.singleton_append]

end Tokens

section Selects

theorem tokensFrom_destName (d : PointDest) : tokensFrom (' ' :: (destName d).toList) [] = [(destName d).toList] := by
  cases d <;> decide

theorem parseDest_destName (d : PointDest) : parseDest (destName d).toList = some d := by
  cases d <;> decide

/-- A select's written form is read as mnemonic, index, comma and destination. -/
theorem parseInstr_select {head mnemonic : String} (hhead : head = mnemonic ++ " ")
    (hplain : mnemonic.toList.all isPlain = true) (hne : mnemonic.toList ≠ []) (n : Nat) (d : PointDest) :
    parseInstr (head ++ toString n ++ ", " ++ destName d) =
      parseOperands mnemonic [Nat.toDigits 10 n, [','], (destName d).toList] := by
  have hline : (head ++ toString n ++ ", " ++ destName d).toList =
      mnemonic.toList ++ ' ' :: (Nat.toDigits 10 n ++ ',' :: ' ' :: (destName d).toList) := by
    simp [String.toList_append, hhead]
  have hdigits : (Nat.toDigits 10 n).all isPlain = true :=
    List.all_eq_true.2 fun _ hch => isPlain_of_isDigit (isDigit_of_mem_digits hch)
  rw [parseInstr, hline, tokensFrom_word_blank hplain hne, tokensFrom_word_comma hdigits Nat.toDigits_ne_nil,
    tokensFrom_destName]
  exact congrArg (parseOperands · _) String.ofList_toList

end Selects

/-- The commands other than the selects have few operand values: their forms are read back one by one. -/
theorem showInstr_bind_parseInstr {i : Instr} (hw : wellFormed i = true) : (showInstr i).bind parseInstr = some i := by
  cases i with
  | base e phi src => revert e phi src; decide
  | affine psrc => revert psrc; decide
  | mask s | decomp s => cases s <;> decide
  | sel2 idx d =>
    refine (parseInstr_select (mnemonic := "SEL2") rfl (by decide) (by decide) idx.toNat d).trans ?_
    simp [parseOperands, parseIndex_toDigits, parseDest_destName]
  | sel4 idx d =>
    refine (parseInstr_select (mnemonic := "SEL4") rfl (by decide) (by decide) idx.toNat d).trans ?_
    simp [parseOperands, parseIndex_toDigits, parseDest_destName]
  | _ => decide

end Sys2Proof.Machine

/-! CERTIFICATE. The assembler syntax (R123). -/

namespace Sys2Proof.Machine

/-- Settles O5: the line the model writes is the one that is read back. -/
theorem assemblerReadsBack : Obligations.AssemblerReadsBack := fun _ hw =>
  Option.bind_eq_some_iff.1 (showInstr_bind_parseInstr hw)

end Sys2Proof.Machine

/-! SUPPORT. How a pending word ends (R142, R143, R281, R282), and the host's view of a command whose rule ran. -/

namespace Sys2Proof.Machine

section ResultCodes

variable {Ext : Type} {c : Params Ext} {w : Word} {b : Block Ext}

/-- R281: a word whose code is E_OK is a command, and its rule runs. -/
theorem executeWord_of_ok (h : resultCode w b = .ok) :
    ∃ i b', executeWord c w b = finish .ok b' ∧
      Effect (regsWritten i) (pointsWritten i) (traceOf i) b.clearTrace b' := by
  unfold resultCode at h
  cases hd : decode w with
  | illegal why | fieldErr why => rw [hd] at h; nomatch h
  | cmd i =>
    cases hr : (reads i).all b.valid with
    | false => simp [hd, hr] at h
    | true =>
      obtain ⟨hw, -⟩ := encodeOfDecode w i hd
      obtain ⟨b', hdone, heffect, -⟩ := execute_completes (c := c) hw hr
      exact ⟨i, b', by rw [executeWord, hd]; exact hdone, heffect⟩

/-- R143: a word with another code is turned away with it. -/
theorem executeWord_of_error (h : resultCode w b ≠ .ok) : executeWord c w b = fail (resultCode w b) b := by
  unfold resultCode executeWord at *
  cases hd : decode w with
  | illegal why | fieldErr why => rfl
  | cmd i =>
    obtain ⟨hw, -⟩ := encodeOfDecode w i hd
    cases hr : (reads i).all b.valid with
    | false => simp [hr, execute, executeInstr_uninit hw hr]
    | true => simp [hd, hr] at h

/-- R142, R281, R284: execution completes the word with its code and keeps CERR and WERR. -/
theorem executeWord_status :
    (executeWord c w b).status = { b.status with busy := false, done := true, ecode := resultCode w b } := by
  by_cases hok : resultCode w b = .ok
  · obtain ⟨i, b', hdone, heffect⟩ := executeWord_of_ok (c := c) hok
    rw [hdone, hok]
    exact heffect.finish_status .ok
  · rw [executeWord_of_error hok, fail_status]

end ResultCodes

section Frames

/-- A command whose rule writes registers of `rs`, among which STATUS and PVALID, and point registers of `ps`. -/
theorem Effect.frameExcept {s : State} {b' : Block Config.Ext} {rs rs' : List Reg} {ps : List Nat}
    {evs : List TraceEvent} (h : Effect rs ps evs s.toBlock.clearTrace b') (code : ECode)
    (hrs : .status :: .pvalid :: rs ⊆ rs') : FrameExcept rs' ps s { s with toBlock := finish code b' } := by
  refine ⟨fun r hr => ?_, h.point, rfl, rfl, rfl⟩
  obtain ⟨hstatus, hpvalid, hmem⟩ : r ≠ .status ∧ r ≠ .pvalid ∧ r ∉ rs := by
    simpa using fun hmem => hr (hrs hmem)
  rw [readReg_finish _ _ hstatus, h.reg r hpvalid hmem, readReg_clearTrace]

theorem Cleared.pvalid {Ext : Type} {b : Block Ext} (h : Cleared b) : b.pvalid = 0 := by
  apply BitVec.eq_of_getLsbD_eq
  intro n _
  simp [getLsbD_pvalid, Block.valid, h.point]

end Frames

end Sys2Proof.Machine

/-! CERTIFICATE. Issuing, executing and completing a command (R140 to R149, R281, R282, R296). -/

namespace Sys2Proof.Machine

/-- Settles O8: the engine's turn is `execute` of the pending word, and that ends with the word's code. -/
theorem engineStepCompletes : Obligations.EngineStepCompletes := by
  refine ⟨fun s w hp => ?_, fun s hp => ⟨engineStep_idle hp, fun hs => ?_⟩⟩
  · obtain ⟨hpending, -⟩ := executeWord_completes s.toBlock Config.params w
    exact ⟨_, engineStep_pending hp, ⟨executeWord_status, hpending⟩, rfl, rfl, rfl⟩
  · rw [step, hs]
    exact engineStep_idle hp

/-- Settles O9: a word with an error code is turned away. -/
theorem errorsChangeOnlyStatus : Obligations.ErrorsChangeOnlyStatus := by
  intro s w hp herror
  rw [engineStep_pending hp, executeWord_of_error herror]
  exact ⟨_, rfl, ⟨rfl, rfl⟩, rfl, frameExcept_fail _ s⟩

/-- Settles O49: a command turned away leaves the empty trace, any other the trace its rule adds to the empty one. -/
theorem traceIsFixedByWordAndPv : Obligations.TraceIsFixedByWordAndPv := by
  intro s i
  refine ⟨_, exec_eq_execute i s, ?_⟩
  cases hw : wellFormed i with
  | false => simp [execute, executeInstr_field hw]
  | true =>
    cases hr : (reads i).all s.valid with
    | false => simp [execute, executeInstr_uninit hw hr]
    | true =>
      obtain ⟨b', hdone, heffect, -⟩ := execute_completes (c := Config.params) hw hr
      simp [hdone, heffect.trace]

theorem readReg_accept {Ext : Type} (w : Word) (b : Block Ext) {r : Reg} (hcmd : r ≠ .cmd) (hstatus : r ≠ .status) :
    readReg (accept w b) r = readReg b r := by
  cases r with
  | cmd | status => contradiction
  | _ => rfl

theorem readReg_rejectCommand {Ext : Type} (b : Block Ext) {r : Reg} (hstatus : r ≠ .status) :
    readReg (rejectCommand b) r = readReg b r := by
  cases r with
  | status => contradiction
  | _ => rfl

/-- Settles O6. -/
theorem idleCmdWriteAccepts : Obligations.IdleCmdWriteAccepts := fun s w hidle =>
  ⟨_, hostWrite_cmd_idle hidle w, rfl, rfl, rfl, fun _ => readReg_accept w s.toBlock, fun _ => rfl⟩

/-- R141: a CMD write while busy is dropped. -/
theorem hostWrite_cmd_busy {s : State} (hbusy : s.status.busy = true) (w : Word) :
    hostWrite 0x000 8 w s = .next { s with toBlock := rejectCommand s.toBlock, response := none } := by
  have hwrite : writeReg s.toBlock .cmd w = rejectCommand s.toBlock := by simp [writeReg, hbusy]
  rw [← hwrite]
  exact hostWrite_aligned rfl w s

/-- Settles O7. -/
theorem busyCmdWriteDropped : Obligations.BusyCmdWriteDropped := fun s w hbusy =>
  ⟨_, hostWrite_cmd_busy hbusy w, rfl, rfl, rfl, fun _ => readReg_rejectCommand s.toBlock, fun _ => rfl⟩

/-- The block takes the 64 bits of a word as they are (R110). -/
theorem tableWord_toNat (w : Word) : tableWord 64 w.toNat = w := by
  rw [tableWord, Nat.mod_eq_of_lt w.isLt, BitVec.ofNat_toNat, BitVec.setWidth_eq]

/-- Settles O14: the word accepted is the command's, it decodes to the command, and the engine moves next. -/
theorem acceptedCommandRuns : Obligations.AcceptedCommandRuns := by
  intro s i hw
  obtain ⟨-, hnext⟩ := stepRunsDecodedCommand (s.withFetchWord 64 (encode i).toNat) (encode i) i
    (congrArg some (tableWord_toNat _)) (decode_encode hw)
  rw [hnext s.schedule rfl, State.withFetchWord, tableWord_toNat]

/-- Settles O16: the rule of NOP leaves the block. -/
theorem nopOnlyCompletes : Obligations.NopOnlyCompletes := fun s =>
  ⟨_, exec_ok (s := s) rfl rfl rfl, ⟨rfl, rfl⟩, rfl,
    fun _ hr => (readReg_finish _ _ (List.ne_of_not_mem_cons hr)).trans (readReg_clearTrace _ _), fun _ _ => rfl,
    rfl, rfl, rfl⟩

/-- Settles O17, from the rule of SCRUB. -/
theorem scrubClearsWorkingStorage : Obligations.ScrubClearsWorkingStorage := by
  intro s
  obtain ⟨b', hrun, heffect, hclear⟩ := performScrub_clears (b := s.toBlock.clearTrace)
  have hcleared : Cleared (finish .ok b') := ⟨hclear.sub, hclear.sgn, hclear.point⟩
  exact ⟨_, exec_ok (i := .scrub) rfl rfl hrun, ⟨heffect.finish_status .ok, rfl⟩, hcleared.sub, hcleared.sgn,
    hcleared.point, hcleared.pvalid, heffect.frameExcept .ok (by decide)⟩

end Sys2Proof.Machine

/-! SUPPORT. Commands one after another (R150): a rule sees neither the lifecycle nor the trace, so executing commands
one by one does what their rules do in one sequence. -/

namespace Sys2Proof.Machine

variable {Ext : Type} {c : Params Ext}

section Settled

/-- The block with its command completed and no trace: all of it that a rule can see or write. -/
def Block.settled (b : Block Ext) : Block Ext := finish .ok b.clearTrace

variable (b : Block Ext)

@[simp] theorem settled_point (n : Nat) : b.settled.point n = b.point n := rfl
@[simp] theorem settled_sgn : b.settled.sgn = b.sgn := rfl
@[simp] theorem settled_u0 : b.settled.u0 = b.u0 := rfl
@[simp] theorem settled_u1 : b.settled.u1 = b.u1 := rfl
@[simp] theorem settled_u2 : b.settled.u2 = b.u2 := rfl
@[simp] theorem settled_u3 : b.settled.u3 = b.u3 := rfl
@[simp] theorem settled_table : b.settled.table = b.table := rfl
@[simp] theorem settled_affineSource (src : BitVec 2) : b.settled.affineSource c src = b.affineSource c src := rfl
@[simp] theorem settled_settled : b.settled.settled = b.settled := rfl
@[simp] theorem settled_finish : (finish .ok b).settled = b.settled := rfl
@[simp] theorem settled_clearTrace : b.clearTrace.settled = b.settled := rfl
@[simp] theorem settled_emit (ev : TraceEvent) : (b.emit ev).settled = b.settled := rfl
@[simp] theorem settled_emitAll (evs : List TraceEvent) : (b.emitAll evs).settled = b.settled := rfl
@[simp] theorem settled_setPoint (n : Nat) (x : Ext) : (b.setPoint n x).settled = b.settled.setPoint n x := rfl

/-- A rule that sees neither the lifecycle nor the trace. -/
def IgnoresLifecycle (p : Block Ext → Option (Block Ext)) : Prop :=
  ∀ b, (p b.settled).map Block.settled = (p b).map Block.settled

theorem IgnoresLifecycle.congr {p : Block Ext → Option (Block Ext)} (hp : IgnoresLifecycle p) {b d : Block Ext}
    (h : b.settled = d.settled) : (p b).map Block.settled = (p d).map Block.settled := by
  rw [← hp b, h, hp d]

theorem IgnoresLifecycle.bind {p q : Block Ext → Option (Block Ext)} (hp : IgnoresLifecycle p)
    (hq : IgnoresLifecycle q) : IgnoresLifecycle fun b => p b >>= q := by
  intro b
  have h := hp b
  cases hleft : p b.settled <;> cases hright : p b <;> simp only [hleft, hright, Option.map_some, Option.map_none] at h
  · simp [hleft, hright]
  · nomatch h
  · nomatch h
  · simpa [hleft, hright] using hq.congr (Option.some.inj h)

end Settled

section Rules

theorem performDecomp_ignoresLifecycle (s : ScalarSel) : IgnoresLifecycle (performDecomp c s) := by
  intro b
  cases s <;> rfl

theorem performMask_ignoresLifecycle (s : ScalarSel) : IgnoresLifecycle (performMask (Ext := Ext) s) := by
  intro b
  cases s <;> rfl

theorem performBase_ignoresLifecycle (e : BitVec 2) (phi : Bool) (src : BitVec 2) :
    IgnoresLifecycle (performBase c e phi src) := by
  intro b
  cases phi <;> simp [performBase]

theorem performGent2_ignoresLifecycle : IgnoresLifecycle (performGent2 c) := by
  intro b
  cases h8 : b.point 8 <;> cases h9 : b.point 9 <;> simp [performGent2, h8, h9]

theorem performGent4_ignoresLifecycle : IgnoresLifecycle (performGent4 c) := by
  intro b
  cases h8 : b.point 8 <;> cases h9 : b.point 9 <;> cases h10 : b.point 10 <;> cases h11 : b.point 11 <;>
    simp [performGent4, h8, h9, h10, h11]

theorem performRecode2_ignoresLifecycle : IgnoresLifecycle (performRecode2 (Ext := Ext)) := by
  intro b
  rw [performRecode2_eq, performRecode2_eq]
  rfl

theorem performRecode4_ignoresLifecycle : IgnoresLifecycle (performRecode4 (Ext := Ext)) := by
  intro b
  rw [performRecode4_eq, performRecode4_eq]
  rfl

/-- What the scan reads depends on the table and the index only (R221). -/
theorem scan_fst_congr (k : Nat) (table : List Ext) (b d : Block Ext) : (scan k table b).1 = (scan k table d).1 := by
  suffices ∀ j r (b d : Block Ext), (scanFrom k j table r b).1 = (scanFrom k j table r d).1 from this 0 none b d
  induction table with
  | nil => exact fun _ _ _ _ => rfl
  | cons x rest ih => exact fun j r b d => ih _ _ _ _

/-- The scan adds its events and nothing else (R221). -/
theorem settled_scan (k : Nat) (table : List Ext) (b : Block Ext) : (scan k table b).2.settled = b.settled := by
  rw [scan, scanFrom_block, settled_emitAll]

theorem performSel2_ignoresLifecycle (i : Nat) (d : PointDest) : IgnoresLifecycle (performSel2 c i d) := by
  intro b
  cases ht : b.table with
  | none => simp [performSel2, ht]
  | some table =>
    have hfst := scan_fst_congr (selectIndex2 b.u0 b.u1 i) table b.settled b
    cases hx : (scan (selectIndex2 b.u0 b.u1 i) table b).1 <;> simp [performSel2, ht, hfst, hx, settled_scan]

theorem performSel4_ignoresLifecycle (i : Nat) (d : PointDest) : IgnoresLifecycle (performSel4 c i d) := by
  intro b
  cases ht : b.table with
  | none => simp [performSel4, ht]
  | some table =>
    have hfst := scan_fst_congr (selectIndex4 b.u1 b.u2 b.u3 i) table b.settled b
    cases hx : (scan (selectIndex4 b.u1 b.u2 b.u3 i) table b).1 <;> simp [performSel4, ht, hfst, hx, settled_scan]

theorem performDbl_ignoresLifecycle : IgnoresLifecycle (performDbl c) := by
  intro b
  cases hx : b.point 12 <;> simp [performDbl, hx]

theorem performAdd_ignoresLifecycle : IgnoresLifecycle (performAdd c) := by
  intro b
  cases hx : b.point 12 <;> cases hy : b.point 13 <;> simp [performAdd, hx, hy]

theorem performCorrect_ignoresLifecycle : IgnoresLifecycle (performCorrect c) := by
  intro b
  cases hx : b.point 12 <;> cases h8 : b.point 8 <;> simp [performCorrect, hx, h8]

theorem performCofactor_ignoresLifecycle : IgnoresLifecycle (performCofactor c) := by
  intro b
  cases hx : b.point 12 <;> simp [performCofactor, hx]

theorem performAffine_ignoresLifecycle (n : Nat) : IgnoresLifecycle (performAffine c n) := by
  intro b
  cases hx : b.point n with
  | none => simp [performAffine, hx]
  | some x =>
    simp only [performAffine, settled_point, hx, Option.bind_eq_bind, Option.bind_some]
    rfl

theorem performScrub_ignoresLifecycle : IgnoresLifecycle (performScrub (Ext := Ext)) := fun _ => rfl

theorem ladder2Loop_ignoresLifecycle (n : Nat) : IgnoresLifecycle (ladder2Loop c n) := by
  induction n with
  | zero => exact fun _ => rfl
  | succ n ih =>
    exact (performSel2_ignoresLifecycle _ _).bind (performDbl_ignoresLifecycle.bind
      (performDbl_ignoresLifecycle.bind (performAdd_ignoresLifecycle.bind ih)))

theorem ladder4Loop_ignoresLifecycle (n : Nat) : IgnoresLifecycle (ladder4Loop c n) := by
  induction n with
  | zero => exact fun _ => rfl
  | succ n ih =>
    exact (performSel4_ignoresLifecycle _ _).bind (performDbl_ignoresLifecycle.bind
      (performAdd_ignoresLifecycle.bind ih))

theorem performLadder2_ignoresLifecycle : IgnoresLifecycle (performLadder2 c) :=
  (performSel2_ignoresLifecycle 126 .x).bind (ladder2Loop_ignoresLifecycle 63)

theorem performLadder4_ignoresLifecycle : IgnoresLifecycle (performLadder4 c) :=
  (performSel4_ignoresLifecycle 126 .x).bind (ladder4Loop_ignoresLifecycle 126)

/-- The end MUL, MUL_GEN and SIMUL share. -/
theorem performTail_ignoresLifecycle :
    IgnoresLifecycle (fun b => do
      let b ← performCorrect c b
      let b ← performCofactor c b
      let b ← performAffine c 12 b
      performScrub b) :=
  performCorrect_ignoresLifecycle.bind (performCofactor_ignoresLifecycle.bind
    ((performAffine_ignoresLifecycle 12).bind performScrub_ignoresLifecycle))

theorem performMulOn_ignoresLifecycle (src : BitVec 2) : IgnoresLifecycle (performMulOn c src) :=
  (performDecomp_ignoresLifecycle .ka).bind ((performBase_ignoresLifecycle 0 false src).bind
    ((performBase_ignoresLifecycle 1 true src).bind (performGent2_ignoresLifecycle.bind
      (performRecode2_ignoresLifecycle.bind (performLadder2_ignoresLifecycle.bind performTail_ignoresLifecycle)))))

theorem performSimul_ignoresLifecycle : IgnoresLifecycle (performSimul c) :=
  (performDecomp_ignoresLifecycle .ka).bind ((performDecomp_ignoresLifecycle .kb).bind
    ((performBase_ignoresLifecycle 0 false 0).bind ((performBase_ignoresLifecycle 1 true 0).bind
      ((performBase_ignoresLifecycle 2 false 1).bind ((performBase_ignoresLifecycle 3 true 1).bind
        (performGent4_ignoresLifecycle.bind (performRecode4_ignoresLifecycle.bind
          (performLadder4_ignoresLifecycle.bind performTail_ignoresLifecycle))))))))

theorem perform_ignoresLifecycle (i : Instr) : IgnoresLifecycle (perform c i) := by
  cases i with
  | nop => exact fun _ => rfl
  | mask s => exact performMask_ignoresLifecycle s
  | mul => exact performMulOn_ignoresLifecycle 0
  | mulGen => exact performMulOn_ignoresLifecycle 2
  | simul => exact performSimul_ignoresLifecycle
  | scrub => exact performScrub_ignoresLifecycle
  | decomp s => exact performDecomp_ignoresLifecycle s
  | base e phi src => exact performBase_ignoresLifecycle e phi src
  | gent2 => exact performGent2_ignoresLifecycle
  | gent4 => exact performGent4_ignoresLifecycle
  | recode2 => exact performRecode2_ignoresLifecycle
  | recode4 => exact performRecode4_ignoresLifecycle
  | sel2 idx d => exact performSel2_ignoresLifecycle _ d
  | sel4 idx d => exact performSel4_ignoresLifecycle _ d
  | ladder2 => exact performLadder2_ignoresLifecycle
  | ladder4 => exact performLadder4_ignoresLifecycle
  | dbl => exact performDbl_ignoresLifecycle
  | add => exact performAdd_ignoresLifecycle
  | correct => exact performCorrect_ignoresLifecycle
  | cofactor => exact performCofactor_ignoresLifecycle
  | affine psrc => exact performAffine_ignoresLifecycle _

end Rules

section Reads

variable {b b' : Block Ext}

/-- A list mapped through an option has a value at every element. -/
theorem isSome_of_mapM {α β : Type} {f : α → Option β} {l : List α} {r : List β} (h : l.mapM f = some r) :
    ∀ a ∈ l, (f a).isSome = true := by
  induction l generalizing r with
  | nil => nofun
  | cons a l ih =>
    rw [List.mapM_cons] at h
    obtain ⟨y, hy, h⟩ := Option.bind_eq_some_iff.1 h
    obtain ⟨ys, hys, -⟩ := Option.bind_eq_some_iff.1 h
    exact List.forall_mem_cons.2 ⟨by rw [hy, Option.isSome_some], ih hys⟩

theorem valid_of_table {table : List Ext} (h : b.table = some table) : ∀ n ∈ List.range 8, b.valid n = true :=
  isSome_of_mapM h

/-- R144: a rule that succeeds found every point register it reads. -/
theorem reads_valid_of_perform {i : Instr} (h : perform c i b = some b') : (reads i).all b.valid = true := by
  cases i with
  | gent2 =>
    obtain ⟨pA, hA, h⟩ := Option.bind_eq_some_iff.1 h
    obtain ⟨pB, hB, -⟩ := Option.bind_eq_some_iff.1 h
    simp [reads, Block.valid, hA, hB]
  | gent4 =>
    obtain ⟨pA, hA, h⟩ := Option.bind_eq_some_iff.1 h
    obtain ⟨pB, hB, h⟩ := Option.bind_eq_some_iff.1 h
    obtain ⟨pC, hC, h⟩ := Option.bind_eq_some_iff.1 h
    obtain ⟨pD, hD, -⟩ := Option.bind_eq_some_iff.1 h
    simp [reads, Block.valid, hA, hB, hC, hD]
  | sel2 idx d | sel4 idx d =>
    obtain ⟨table, ht, -⟩ := Option.bind_eq_some_iff.1 h
    exact List.all_eq_true.2 (valid_of_table ht)
  | ladder2 | ladder4 =>
    obtain ⟨b1, h1, -⟩ := Option.bind_eq_some_iff.1 h
    obtain ⟨table, ht, -⟩ := Option.bind_eq_some_iff.1 h1
    exact List.all_eq_true.2 (valid_of_table ht)
  | dbl | cofactor | affine =>
    obtain ⟨x, hx, -⟩ := Option.bind_eq_some_iff.1 h
    simp [reads, Block.valid, hx]
  | add | correct =>
    obtain ⟨x, hx, h⟩ := Option.bind_eq_some_iff.1 h
    obtain ⟨y, hy, -⟩ := Option.bind_eq_some_iff.1 h
    simp [reads, Block.valid, hx, hy]
  | nop | mask | mul | mulGen | simul | scrub | decomp | base | recode2 | recode4 => rfl

end Reads

section Sequences

/-- The rules of the commands of a list, one after another. -/
def performAll (c : Params Ext) : List Instr → Block Ext → Option (Block Ext)
  | [], b => some b
  | i :: rest, b => perform c i b >>= performAll c rest

theorem performMulOn_eq (src : BitVec 2) (b : Block Ext) :
    performMulOn c src b = performAll c (mulCommands src) b := by
  simp [performMulOn, mulCommands, performAll, perform]

theorem performSimul_eq (b : Block Ext) : performSimul c b = performAll c simulCommands b := by
  simp [performSimul, simulCommands, performAll, perform]

/-- R225's loop is its commands' rules, at every length whose indices fit IDX. -/
theorem ladder2Loop_eq {n : Nat} (hn : n ≤ 64) (b : Block Ext) :
    ladder2Loop c n b = performAll c ((List.range n).flatMap fun j =>
      [.sel2 (BitVec.ofNat 7 (2 * n - 2 - 2 * j)) .y, .dbl, .dbl, .add]) b := by
  induction n generalizing b with
  | zero => rfl
  | succ n ih =>
    have hidx : (2 * (n + 1) - 2) % 128 = 2 * n := by omega
    have hnext (j : Nat) : 2 * (n + 1) - 2 - 2 * (j + 1) = 2 * n - 2 - 2 * j := by omega
    simp [ladder2Loop, List.range_succ_eq_map, List.flatMap_map, performAll, perform, hidx, hnext, ih (by omega)]

theorem performLadder2_eq (b : Block Ext) : performLadder2 c b = performAll c ladder2Commands b := by
  simp [performLadder2, ladder2Commands, performAll, perform, ladder2Loop_eq]

/-- R226's loop is its commands' rules, at every length whose indices fit IDX. -/
theorem ladder4Loop_eq {n : Nat} (hn : n ≤ 128) (b : Block Ext) :
    ladder4Loop c n b = performAll c ((List.range n).flatMap fun j =>
      [.sel4 (BitVec.ofNat 7 (n - 1 - j)) .y, .dbl, .add]) b := by
  induction n generalizing b with
  | zero => rfl
  | succ n ih =>
    have hidx : n % 128 = n := Nat.mod_eq_of_lt (by omega)
    have hnext (j : Nat) : n - 1 - j = n - (j + 1) := by omega
    simp [ladder4Loop, List.range_succ_eq_map, List.flatMap_map, performAll, perform, hidx, hnext, ih (by omega)]

theorem performLadder4_eq (b : Block Ext) : performLadder4 c b = performAll c ladder4Commands b := by
  simp [performLadder4, ladder4Commands, performAll, perform, ladder4Loop_eq]

end Sequences

section OneByOne

variable {s : State} {b b' : Block Config.Ext}

/-- A command executed in its own step does what its rule does inside a sequence. -/
theorem exec_of_perform {i : Instr} (hw : wellFormed i = true) (hs : s.toBlock.settled = b.settled)
    (hp : perform Config.params i b = some b') :
    ∃ d, exec i s = .next { s with toBlock := d } ∧ d.clearTrace = b'.settled := by
  have hstart : s.toBlock.clearTrace.settled = b.settled := hs
  have hrule := (perform_ignoresLifecycle (c := Config.params) i).congr hstart
  rw [hp, Option.map_some, Option.map_eq_some_iff] at hrule
  obtain ⟨d, hd, hsettled⟩ := hrule
  exact ⟨_, exec_ok hw (reads_valid_of_perform (b := s.toBlock.clearTrace) hd) hd, hsettled⟩

/-- R150: from a block whose command is complete, commands executed one by one do what their rules do in sequence. -/
theorem runInstrs_of_performAll {is : List Instr} (hw : ∀ i ∈ is, wellFormed i = true)
    (hs : s.toBlock.clearTrace = b.settled) (hp : performAll Config.params is b = some b') :
    ∃ d, runInstrs is s = .next { s with toBlock := d } ∧ d.clearTrace = b'.settled := by
  induction is generalizing s b with
  | nil =>
    obtain rfl := Option.some.inj hp
    exact ⟨_, rfl, hs⟩
  | cons i is ih =>
    obtain ⟨b1, hp1, hp⟩ := Option.bind_eq_some_iff.1 hp
    have hstart : s.toBlock.settled = b.settled := by rw [Block.settled, hs]; rfl
    obtain ⟨d1, hexec, hd1⟩ := exec_of_perform (hw i List.mem_cons_self) hstart hp1
    obtain ⟨d, hrun, hd⟩ := ih (fun j hj => hw j (List.mem_cons_of_mem i hj)) (s := { s with toBlock := d1 }) hd1 hp
    exact ⟨d, by rw [runInstrs, hexec]; exact hrun, hd⟩

/-- R150: a command whose rule is the sequence of the rules of `i :: is` leaves, but for the trace, what those commands
leave when executed one by one. -/
theorem exec_eq_runInstrs {k i : Instr} {is : List Instr} (hk : wellFormed k = true)
    (hr : (reads k).all s.valid = true) (hw : ∀ j ∈ i :: is, wellFormed j = true)
    (hseq : ∀ b, perform Config.params k b = performAll Config.params (i :: is) b) :
    ∃ t u, exec k s = .next t ∧ runInstrs (i :: is) s = .next u ∧
      { t with trace := [] } = { u with trace := [] } := by
  obtain ⟨b', hp, -⟩ := perform_effect (c := Config.params) (b := s.toBlock.clearTrace) k hr
  have hall := hp
  rw [hseq] at hall
  obtain ⟨b1, hp1, hall⟩ := Option.bind_eq_some_iff.1 hall
  obtain ⟨d1, hexec, hd1⟩ := exec_of_perform (hw i List.mem_cons_self) (settled_clearTrace s.toBlock).symm hp1
  obtain ⟨d, hrun, hd⟩ := runInstrs_of_performAll (s := { s with toBlock := d1 })
    (fun j hj => hw j (List.mem_cons_of_mem i hj)) hd1 hall
  refine ⟨_, _, exec_ok hk hr hp, by rw [runInstrs, hexec]; exact hrun, ?_⟩
  exact congrArg (fun x : Block Config.Ext => { s with toBlock := x }) hd.symm

end OneByOne

end Sys2Proof.Machine

/-! CERTIFICATE. The ladders and the public operations as their commands (R150, R225, R226, R260 to R262). -/

namespace Sys2Proof.Machine

theorem wellFormed_ladder2Commands : ∀ i ∈ ladder2Commands, wellFormed i = true := by
  refine List.forall_mem_cons.2 ⟨rfl, List.forall_mem_flatMap.2 fun j _ => ?_⟩
  simp [wellFormed]

theorem wellFormed_ladder4Commands : ∀ i ∈ ladder4Commands, wellFormed i = true := by
  refine List.forall_mem_cons.2 ⟨rfl, List.forall_mem_flatMap.2 fun j _ => ?_⟩
  simp [wellFormed]

/-- Settles O35: the rule of each ladder is its commands' rules in sequence. -/
theorem laddersAreTheirCommands : Obligations.LaddersAreTheirCommands := by
  intro s ht
  have hr : [0, 1, 2, 3, 4, 5, 6, 7].all s.valid = true :=
    List.all_eq_true.2 fun j hj => ht j (List.mem_range.1 hj)
  exact ⟨exec_eq_runInstrs rfl hr wellFormed_ladder2Commands performLadder2_eq,
    exec_eq_runInstrs rfl hr wellFormed_ladder4Commands performLadder4_eq⟩

/-- Settles O38: the rule of each operation is its commands' rules in sequence, and none reads a point at the start. -/
theorem publicOperationsAreTheirCommands : Obligations.PublicOperationsAreTheirCommands := fun _ =>
  ⟨exec_eq_runInstrs rfl rfl (by decide) (performMulOn_eq 0),
    exec_eq_runInstrs rfl rfl (by decide) (performMulOn_eq 2),
    exec_eq_runInstrs rfl rfl (by decide) performSimul_eq⟩

end Sys2Proof.Machine

/-! SUPPORT. The rules of MASK, DECOMP and BASE, value and frame (R160, R162, R164), and the host's view of a command
that writes no point register. -/

namespace Sys2Proof.Machine

section RegisterFrames

variable {Ext : Type} {b b' : Block Ext} {rs rs' : List Reg} {evs : List TraceEvent}

/-- R48, R54: a rule that writes no point register leaves PVALID. -/
theorem Effect.pvalid_eq (h : Effect rs [] evs b b') : b'.pvalid = b.pvalid := by
  apply BitVec.eq_of_getLsbD_eq
  intro n _
  rw [getLsbD_pvalid, getLsbD_pvalid, h.valid_of_notMem List.not_mem_nil]

/-- A command whose rule writes no point register, and of the registers those of `rs`. -/
theorem Effect.frameExcept_of_noPoints {s : State} {b' : Block Config.Ext}
    (h : Effect rs [] evs s.toBlock.clearTrace b') (code : ECode) (hrs : .status :: rs ⊆ rs') :
    FrameExcept rs' [] s { s with toBlock := finish code b' } := by
  refine ⟨fun r hr => ?_, h.point, rfl, rfl, rfl⟩
  obtain ⟨hstatus, hmem⟩ : r ≠ .status ∧ r ∉ rs := by
    simpa using fun hmem => hr (hrs hmem)
  rw [readReg_finish _ _ hstatus]
  by_cases hp : r = .pvalid
  · subst hp
    exact h.pvalid_eq
  · rw [h.reg r hp hmem, readReg_clearTrace]

end RegisterFrames

section MaskedScalar

/-- The mask keeps the low 59 bits of a word. -/
theorem and_topMask_toNat (w : Word) : (w &&& 0x07FFFFFFFFFFFFFF#64).toNat = w.toNat % 2 ^ 59 := by
  rw [BitVec.toNat_and]
  exact Nat.and_two_pow_sub_one_eq_mod w.toNat 59

/-- R160, R161: bits 251 and up of a scalar are the upper five of its limb 3. -/
theorem intOf_maskScalar (k : U256) : intOf (maskScalar k) = intOf k % 2 ^ 251 := by
  have hlow : ∀ j < 3, limb (maskScalar k) j = limb k j := fun j hj => limb_setLimb_ne k _ (by omega) (by omega)
  have htop : limb (maskScalar k) 3 = limb k 3 &&& 0x07FFFFFFFFFFFFFF#64 := limb_setLimb_same k 3 _ (by decide)
  unfold intOf
  rw [hlow 0 (by decide), hlow 1 (by decide), hlow 2 (by decide), htop, and_topMask_toNat]
  omega

end MaskedScalar

section ScalarRules

variable {Ext : Type} {c : Params Ext} {b : Block Ext} {evs : List TraceEvent}

/-- Limb 3 of a scalar. -/
def topLimb : ScalarSel → Reg
  | .ka => .ka 3
  | .kb => .kb 3

/-- Storing an operand word and recording events (R88). -/
theorem effect_storeOperand (r : Reg) (v : Word) (evs : List TraceEvent) :
    Effect [r] [] evs b ((storeOperand b r v).emitAll evs) := by
  obtain ⟨-, hstatus, hie, -, htrace, hpr⟩ := storeOperand_keeps b r v
  exact
    { status := hstatus
      ie := hie
      trace := congrArg (· ++ evs) htrace
      reg := fun r' _ hr' =>
        (readReg_emitAll _ r' evs).trans (readReg_storeOperand_ne b (List.ne_of_not_mem_cons hr') v)
      point := fun n _ => point_congr hpr n }

/-- R160: MASK is a store of the masked limb 3. -/
theorem performMask_effect (sel : ScalarSel) :
    ∃ b', performMask sel b = some b' ∧ b'.scalar sel = maskScalar (b.scalar sel) ∧
      Effect [topLimb sel] [] [.maskK sel] b b' := by
  cases sel
  · exact ⟨_, rfl, rfl, effect_storeOperand (.ka 3) (limb b.ka 3 &&& 0x07FFFFFFFFFFFFFF#64) _⟩
  · exact ⟨_, rfl, rfl, effect_storeOperand (.kb 3) (limb b.kb 3 &&& 0x07FFFFFFFFFFFFFF#64) _⟩

/-- A rule that writes, of the registers, SGN and the subscalars of `es` only. -/
theorem effect_of_subscalars {u0 u1 u2 u3 : U128} {sgn : Sgn} (es : List (Fin 4))
    (hsub : ∀ e, e ∉ es → ({ b with u0 := u0, u1 := u1, u2 := u2, u3 := u3 } : Block Ext).sub e = b.sub e) :
    Effect (subscalarRegs es ++ [.sgn]) [] evs b
      { b with u0 := u0, u1 := u1, u2 := u2, u3 := u3, sgn := sgn, trace := b.trace ++ evs } where
  status := rfl
  ie := rfl
  trace := rfl
  reg r _ hr := by
    cases r with
    | uLo e =>
      have he : e ∉ es := by simpa [subscalarRegs] using hr
      exact congrArg (limb · 0) (hsub e he)
    | uHi e =>
      have he : e ∉ es := by simpa [subscalarRegs] using hr
      exact congrArg (limb · 1) (hsub e he)
    | sgn => exact absurd (by simp) hr
    | _ => rfl
  point _ _ := rfl

/-- R162 for KA. -/
theorem performDecomp_ka_effect :
    ∃ b', performDecomp c .ka b = some b' ∧ (b'.sgn.sg0, b'.u0, b'.sgn.sg1, b'.u1) = c.decompose b.ka ∧
      b'.sgn = { b.sgn with sg0 := b'.sgn.sg0, sg1 := b'.sgn.sg1 } ∧
      Effect (subscalarRegs [0, 1] ++ [.sgn]) [] [.decomp .ka] b b' := by
  refine ⟨_, performDecomp_ka_eq rfl, rfl, rfl, effect_of_subscalars [0, 1] fun e he => ?_⟩
  match e with
  | 0 | 1 => exact absurd (by decide) he
  | 2 | 3 => rfl

/-- R162 for KB. -/
theorem performDecomp_kb_effect :
    ∃ b', performDecomp c .kb b = some b' ∧ (b'.sgn.sg2, b'.u2, b'.sgn.sg3, b'.u3) = c.decompose b.kb ∧
      b'.sgn = { b.sgn with sg2 := b'.sgn.sg2, sg3 := b'.sgn.sg3 } ∧
      Effect (subscalarRegs [2, 3] ++ [.sgn]) [] [.decomp .kb] b b' := by
  refine ⟨_, performDecomp_kb_eq rfl, rfl, rfl, effect_of_subscalars [2, 3] fun e he => ?_⟩
  match e with
  | 0 | 1 => rfl
  | 2 | 3 => exact absurd (by decide) he

end ScalarRules

section Bases

variable {Ext : Type} {c : Params Ext} {b b' : Block Ext} {e : BitVec 2} {phi : Bool} {src : BitVec 2}

/-- R44: SG[E] is bit E of SGN. -/
theorem sign_eq_getLsbD (g : Sgn) (e : BitVec 2) : sign g e = (sgnWord g).getLsbD e.toNat := by
  obtain ⟨sg0, sg1, sg2, sg3, lsb⟩ := g
  revert sg0 sg1 sg2 sg3 lsb e
  decide

/-- R164: the point BASE writes, from its source. -/
theorem point_of_performBase (hrun : performBase c e phi src b = some b') :
    b'.point (baseReg e) =
      some (condNeg c (sign b.sgn e)
        (c.expand (if phi then c.morph (b.affineSource c src) else b.affineSource c src))) := by
  have hreg : baseReg e < 14 := by unfold baseReg; omega
  obtain rfl := Option.some.inj hrun
  rw [putPoint_eq, emit_point, point_setPoint_same _ _ _ hreg]

end Bases

end Sys2Proof.Machine

/-! CERTIFICATE. Masking, decomposition and the bases (R160 to R162, R164). -/

namespace Sys2Proof.Machine

/-- Settles O18: clearing the upper five bits of limb 3 is reduction modulo 2^251. -/
theorem maskReducesBelow251Bits : Obligations.MaskReducesBelow251Bits := by
  intro s sel
  obtain ⟨b', hrun, hscalar, heffect⟩ := performMask_effect (b := s.toBlock.clearTrace) sel
  have hint : intOf (b'.scalar sel) = intOf (s.scalar sel) % 2 ^ 251 := by
    rw [hscalar, intOf_maskScalar, clearTrace_scalar]
  have hlt : intOf (b'.scalar sel) < 2 ^ 251 := hint ▸ Nat.mod_lt _ (by decide)
  refine ⟨_, exec_ok (i := .mask sel) rfl rfl hrun, ⟨heffect.finish_status .ok, rfl⟩, ?_⟩
  cases sel <;>
    exact ⟨hint, fun _ hq => hlt.trans hq, heffect.frameExcept_of_noPoints .ok (List.Perm.swap _ _ _).subset⟩

/-- Settles O19: the rule of DECOMP for each scalar. -/
theorem decompWritesItsPair : Obligations.DecompWritesItsPair := by
  constructor
  · intro s
    obtain ⟨b', hrun, hpair, hsgn, heffect⟩ := performDecomp_ka_effect (c := Config.params) (b := s.toBlock.clearTrace)
    exact ⟨_, exec_ok (i := .decomp .ka) rfl rfl hrun, ⟨heffect.finish_status .ok, rfl⟩, hpair, hsgn,
      heffect.frameExcept_of_noPoints .ok (by decide)⟩
  · intro s
    obtain ⟨b', hrun, hpair, hsgn, heffect⟩ := performDecomp_kb_effect (c := Config.params) (b := s.toBlock.clearTrace)
    exact ⟨_, exec_ok (i := .decomp .kb) rfl rfl hrun, ⟨heffect.finish_status .ok, rfl⟩, hpair, hsgn,
      heffect.frameExcept_of_noPoints .ok (by decide)⟩

/-- Settles O20: AS names its source, and the rule of BASE writes the point made of it. -/
theorem baseWritesSignedPoint : Obligations.BaseWritesSignedPoint := by
  intro s e phi src p hsrc
  obtain ⟨hw, rfl⟩ : wellFormed (.base e phi src) = true ∧ s.affineSource Config.params src = p := by
    rcases hsrc with ⟨rfl, rfl⟩ | ⟨rfl, rfl⟩ | ⟨rfl, rfl⟩ <;> exact ⟨rfl, rfl⟩
  obtain ⟨b', hrun, hfills⟩ := performBase_fills (c := Config.params) (b := s.toBlock.clearTrace) e phi src
  have hpoint := point_of_performBase hrun
  rw [sign_eq_getLsbD] at hpoint
  exact ⟨_, exec_ok (i := .base e phi src) hw rfl hrun, ⟨hfills.toEffect.finish_status .ok, rfl⟩, hpoint,
    hfills.toEffect.frameExcept .ok (List.Subset.refl _)⟩

end Sys2Proof.Machine

/-! SUPPORT. The recoders as the host sees them: the registers and flags one execution leaves, and its frame (R180,
R182). -/

namespace Sys2Proof.Machine

/-- R180's difference: LSB is 0 exactly when bit 0 of the subscalar is set. -/
theorem recodeSign_eq (m : Nat) (a : U128) :
    recodeSign m a = ((a - (if a.getLsbD 0 then 0#128 else 1#128)) >>> 1) ||| (1#128 <<< m) := by
  rw [recodeSign, recodeLsb]
  cases a.getLsbD 0 <;> rfl

/-- R180: one execution of RECODE2. -/
theorem exec_recode2 (s : State) : ∃ t, exec .recode2 s = .next t ∧ EndsWith .ok s t ∧
    t.u0 = recodeSign 127 s.u0 ∧ t.u1 = recode2Lane s.u0 s.u1 ∧ t.sgn = { s.sgn with lsb := recodeLsb s.u0 } ∧
    FrameExcept (subscalarRegs [0, 1] ++ [.sgn, .status]) [] s t := by
  have heffect : Effect (subscalarRegs [0, 1] ++ [.sgn]) [] (recodeTrace 2 127) s.toBlock.clearTrace _ :=
    effect_of_subscalars (u0 := recodeSign 127 s.u0) (u1 := recode2Lane s.u0 s.u1) (u2 := s.u2) (u3 := s.u3)
      (sgn := { s.sgn with lsb := recodeLsb s.u0 }) [0, 1] fun e he => by
        match e with
        | 0 | 1 => exact absurd (by decide) he
        | 2 | 3 => rfl
  exact ⟨_, exec_ok (i := .recode2) rfl rfl (performRecode2_eq _), ⟨rfl, rfl⟩, rfl,
    by simp only [finish_u1, clearTrace_u0, clearTrace_u1], rfl, heffect.frameExcept_of_noPoints .ok (by decide)⟩

/-- R182: one execution of RECODE4, its three lanes alike. -/
theorem exec_recode4 (s : State) : ∃ t, exec .recode4 s = .next t ∧ EndsWith .ok s t ∧
    t.u0 = recodeSign 126 s.u0 ∧ (∀ e : Fin 4, e ≠ 0 → t.sub e = recode4Lane s.u0 (s.sub e)) ∧
    t.sgn = { s.sgn with lsb := recodeLsb s.u0 } ∧
    FrameExcept (subscalarRegs [0, 1, 2, 3] ++ [.sgn, .status]) [] s t := by
  have hfills : Fills workRegs [] (recodeTrace 4 126) s.toBlock.clearTrace _ :=
    fills_of_workRegs (u0 := recodeSign 126 s.u0) (u1 := recode4Lane s.u0 s.u1) (u2 := recode4Lane s.u0 s.u2)
      (u3 := recode4Lane s.u0 s.u3) (sgn := { s.sgn with lsb := recodeLsb s.u0 })
  refine ⟨_, exec_ok (i := .recode4) rfl rfl (performRecode4_eq _), ⟨rfl, rfl⟩, rfl, fun e he => ?_, rfl,
    hfills.toEffect.frameExcept_of_noPoints .ok (by decide)⟩
  match e with
  | 0 => exact absurd rfl he
  | 1 | 2 | 3 =>
    simp only [Block.sub, finish_u1, finish_u2, finish_u3, clearTrace_u0, clearTrace_u1, clearTrace_u2, clearTrace_u3]

/-- R184: a subscalar from 1 up to 2^(m+1) is the sign scalar's value and LSB, exactly. -/
theorem signValue_recodeSign_eq {m : Nat} (hm : m < 128) {a : U128} (hpos : 1 ≤ a.toNat)
    (ha : a.toNat ≤ 2 ^ (m + 1)) :
    signValue (m + 1) (recodeSign m a) + (recodeLsb a).toNat = a.toNat := by
  have hpred : (a - 1#128).toNat = a.toNat - 1 := BitVec.toNat_sub_of_le hpos
  rw [signValue_recodeSign hm, hpred, Nat.mod_eq_of_lt (by omega), Nat.sub_add_cancel hpos]

end Sys2Proof.Machine

/-! CERTIFICATE. Recoding: what RECODE2 and RECODE4 write, and what the digits they write are worth (R180 to R184). -/

namespace Sys2Proof.Machine

/-- Settles O23: the top sign is +1, so the digits are worth the subscalar. -/
theorem recode2DigitsEncodeInputs : Obligations.Recode2DigitsEncodeInputs := by
  intro s
  obtain ⟨t, hexec, -, hu0, hu1, hsgn, -⟩ := exec_recode2 s
  have htop := getLsbD_recodeSign_top (m := 127) (by decide) s.u0
  have hsign := signValue_recodeSign (m := 127) (by decide) s.u0
  rw [Nat.mod_eq_of_lt (s.u0 - 1#128).isLt] at hsign
  refine ⟨t, hexec, ?_⟩
  rw [hu0, hu1, hsgn]
  refine ⟨?_, by exact_mod_cast hsign, digitValue_recodeLane_modEq _ _ (by decide) htop,
    digitValue_recodeLane_eq _ _ (by decide) htop, htop⟩
  rw [signValue_eq, Nat.mod_eq_of_lt (recodeSign 127 s.u0).isLt]

/-- Settles O24: as for RECODE2, with the top sign at 126. -/
theorem recode4DigitsEncodeInputs : Obligations.Recode4DigitsEncodeInputs := by
  intro s
  obtain ⟨t, hexec, -, hu0, hlanes, hsgn, -⟩ := exec_recode4 s
  have htop := getLsbD_recodeSign_top (m := 126) (by decide) s.u0
  have hsign := signValue_recodeSign (m := 126) (by decide) s.u0
  refine ⟨t, hexec, signValue_eq 127 t.u0, ?_, fun e he => ?_⟩
  · rw [hu0, hsgn]
    exact_mod_cast hsign
  · rw [hu0, hlanes e he]
    exact ⟨digitValue_recodeLane_modEq _ _ (by decide) htop, digitValue_recodeLane_eq _ _ (by decide) htop⟩

/-- Settles O25: subscalars in range meet the premises under which sign scalar and lanes are exact. -/
theorem recodingInvertible : Obligations.RecodingInvertible := by
  intro s hlt hpos
  have hu0lt : s.u0.toNat < 2 ^ 126 := hlt 0
  have hu1lt : s.u1.toNat < 2 ^ 126 := hlt 1
  constructor
  · obtain ⟨t, hexec, -, hu0, hu1, hsgn, -⟩ := exec_recode2 s
    refine ⟨t, hexec, ?_⟩
    rw [hu0, hu1, hsgn]
    exact ⟨signValue_recodeSign_eq (by decide) hpos (by omega),
      digitValue_recodeLane_eq _ _ (by decide) (getLsbD_recodeSign_top (by decide) _) (by omega)⟩
  · obtain ⟨t, hexec, -, hu0, hlanes, hsgn, -⟩ := exec_recode4 s
    refine ⟨t, hexec, ?_, fun e he => ?_⟩
    · rw [hu0, hsgn]
      exact signValue_recodeSign_eq (by decide) hpos (by omega)
    · rw [hu0, hlanes e he]
      exact digitValue_recodeLane_eq _ _ (by decide) (getLsbD_recodeSign_top (by decide) _) (hlt e)

/-- Settles O21: the lane is the loop of R180 under the mask of the new U0. -/
theorem recode2RewritesU0U1 : Obligations.Recode2RewritesU0U1 := by
  intro s
  obtain ⟨t, hexec, hends, hu0, hu1, hsgn, hframe⟩ := exec_recode2 s
  refine ⟨t, hexec, hends, hu0.trans (recodeSign_eq 127 s.u0), ?_, hsgn, hframe⟩
  rw [hu0]
  exact hu1

/-- Settles O22: each lane is the loop of R182 under the mask of the new U0. -/
theorem recode4RewritesU0ToU3 : Obligations.Recode4RewritesU0ToU3 := by
  intro s
  obtain ⟨t, hexec, hends, hu0, hlanes, hsgn, hframe⟩ := exec_recode4 s
  refine ⟨t, hexec, hends, hu0.trans (recodeSign_eq 126 s.u0), ?_, hsgn, hframe⟩
  rw [hu0]
  exact ⟨hlanes 1 (by decide), hlanes 2 (by decide), hlanes 3 (by decide)⟩

end Sys2Proof.Machine

/-! CERTIFICATE. The table build: GENT2 and GENT4 as the capability calls of their rules (R200, R202). -/

namespace Sys2Proof.Machine

section TableEntries

variable {Ext : Type} {c : Params Ext} {b b' : Block Ext} {A B C D : Ext}

/-- R200: the entries GENT2 writes, from its two bases; its rule writes each register once. -/
theorem table_of_performGent2 (hA : b.point 8 = some A) (hB : b.point 9 = some B)
    (hrun : performGent2 c b = some b') :
    (List.range 8).map b'.point =
      [some (c.add (c.dbl A) A), some (c.add (c.add (c.dbl A) A) B), some (c.add (c.add (c.dbl A) A) (c.dbl B)),
       some (c.add (c.add (c.add (c.dbl A) A) B) (c.dbl B)), some A, some (c.add A (c.neg B)),
       some (c.add A (c.dbl B)), some (c.add A B)] := by
  rw [performGent2, hA, hB] at hrun
  obtain rfl := Option.some.inj hrun
  simp [List.range_succ, point_setPoint, copyPoint]

/-- R202: the entries GENT4 writes, from its four bases; its rule writes each register once. -/
theorem table_of_performGent4 (hA : b.point 8 = some A) (hB : b.point 9 = some B) (hC : b.point 10 = some C)
    (hD : b.point 11 = some D) (hrun : performGent4 c b = some b') :
    (List.range 8).map b'.point =
      [some A, some (c.add A B), some (c.add A C), some (c.add (c.add A B) C), some (c.add A D),
       some (c.add (c.add A B) D), some (c.add (c.add A C) D), some (c.add (c.add (c.add A B) C) D)] := by
  rw [performGent4, hA, hB, hC, hD] at hrun
  obtain rfl := Option.some.inj hrun
  simp [List.range_succ, point_setPoint, copyPoint]

end TableEntries

/-- Settles O26: GENT2 finds both bases, and its rule fills the table with the calls listed. -/
theorem gent2BuildsTable : Obligations.Gent2BuildsTable := by
  intro s A B hA hB
  have h8 : s.valid 8 = true := (valid_iff s.toBlock 8).2 ⟨A, hA⟩
  have h9 : s.valid 9 = true := (valid_iff s.toBlock 9).2 ⟨B, hB⟩
  obtain ⟨b', hrun, hfills⟩ := performGent2_fills (c := Config.params) (b := s.toBlock.clearTrace) h8 h9
  have htable := table_of_performGent2 (b := s.toBlock.clearTrace) hA hB hrun
  exact ⟨_, exec_ok (i := .gent2) rfl (by simp [reads, h8, h9]) hrun, ⟨hfills.toEffect.finish_status .ok, rfl⟩,
    htable, hfills.toEffect.frameExcept .ok (List.Subset.refl _)⟩

/-- Settles O27: GENT4 finds its four bases, and its rule fills the table with the calls listed. -/
theorem gent4BuildsTable : Obligations.Gent4BuildsTable := by
  intro s A B C D hA hB hC hD
  have h8 : s.valid 8 = true := (valid_iff s.toBlock 8).2 ⟨A, hA⟩
  have h9 : s.valid 9 = true := (valid_iff s.toBlock 9).2 ⟨B, hB⟩
  have h10 : s.valid 10 = true := (valid_iff s.toBlock 10).2 ⟨C, hC⟩
  have h11 : s.valid 11 = true := (valid_iff s.toBlock 11).2 ⟨D, hD⟩
  obtain ⟨b', hrun, hfills⟩ := performGent4_fills (c := Config.params) (b := s.toBlock.clearTrace) h8 h9 h10 h11
  have htable := table_of_performGent4 (b := s.toBlock.clearTrace) hA hB hC hD hrun
  exact ⟨_, exec_ok (i := .gent4) rfl (by simp [reads, h8, h9, h10, h11]) hrun,
    ⟨hfills.toEffect.finish_status .ok, rfl⟩, htable, hfills.toEffect.frameExcept .ok (List.Subset.refl _)⟩

end Sys2Proof.Machine

/-! SUPPORT. A command that gives up no point, as the host sees it: how it ends, its frame, and what a select, a
command on X or AFFINE leaves (R48, R143, R220 to R224, R227 to R229). -/

namespace Sys2Proof.Machine

section FilledPoints

variable {Ext : Type} {b b' : Block Ext} {rs rs' : List Reg} {ps : List Nat} {evs : List TraceEvent}

/-- R48, R54: PVALID stays when every point register a rule fills held a value before. -/
theorem Fills.pvalid_eq (h : Fills rs ps evs b b') (hv : ∀ n ∈ ps, b.valid n = true) : b'.pvalid = b.pvalid := by
  have hvalid : b'.valid = b.valid := funext fun n => by
    by_cases hn : n ∈ ps
    · rw [h.valid n hn, hv n hn]
    · exact h.valid_of_notMem hn
  rw [Block.pvalid, Block.pvalid, hvalid]

/-- The frame of a command that overwrites values: PVALID is in it. -/
theorem Fills.frameExcept_of_valid {s : State} {b' : Block Config.Ext}
    (h : Fills rs ps evs s.toBlock.clearTrace b') (code : ECode) (hv : ∀ n ∈ ps, s.valid n = true) :
    FrameExcept (.status :: rs) ps s { s with toBlock := finish code b' } := by
  obtain ⟨hreg, hrest⟩ := h.toEffect.frameExcept code (List.Subset.refl _)
  refine ⟨fun r hr => ?_, hrest⟩
  by_cases hp : r = .pvalid
  · subst hp
    exact h.pvalid_eq hv
  · exact hreg r (by simpa [hp] using hr)

/-- R143 for a command that fills the point registers it writes, on points that hold values. -/
theorem exec_fills {i : Instr} {s : State} (hw : wellFormed i = true) (hi : dropsPoints i = false)
    (hr : ∀ n ∈ reads i, s.valid n = true) :
    ∃ b', perform Config.params i s.toBlock.clearTrace = some b' ∧
      Fills (regsWritten i) (pointsWritten i) (traceOf i) s.toBlock.clearTrace b' ∧
      exec i s = .next { s with toBlock := finish .ok b' } ∧ EndsWith .ok s { s with toBlock := finish .ok b' } := by
  obtain ⟨b', hrun, hfills⟩ := perform_fills (c := Config.params) (b := s.toBlock.clearTrace) i hi hr
  exact ⟨b', hrun, hfills, exec_ok hw (List.all_eq_true.2 hr) hrun, hfills.toEffect.finish_status .ok, rfl⟩

end FilledPoints

section SelectedPoint

variable {Ext : Type} {c : Params Ext} {b b' : Block Ext} {i : Nat} {d : PointDest} {T : Nat → Ext}

theorem valid_of_table_points (hT : ∀ j < 8, b.point j = some (T j)) : ∀ n ∈ List.range 8, b.valid n = true :=
  fun n hn => (valid_iff b n).2 ⟨T n, hT n (List.mem_range.1 hn)⟩

/-- A sign that is an inverted bit negates where the bit is 0. -/
theorem condNeg_not (f : Bool) (x : Ext) : condNeg c (!f) x = if f then x else c.neg x := by cases f <;> rfl

theorem toNat_xor_eq (p q : Bool) : (p ^^ q).toNat = (p.toNat + q.toNat) % 2 := by cases p <;> cases q <;> rfl

/-- R220: the point SEL2 leaves, its index and sign bit by bit. -/
theorem point_of_performSel2 (hT : ∀ j < 8, b.point j = some (T j)) (hrun : performSel2 c i d b = some b') :
    b'.point (destReg d) =
      some (condNeg c (!b.u0.getLsbD (i + 1))
        (T (4 * (((b.u0.getLsbD i).toNat + (b.u0.getLsbD (i + 1)).toNat) % 2) + 2 * (b.u1.getLsbD (i + 1)).toNat +
          (b.u1.getLsbD i).toNat))) := by
  rw [performSel2_eq c i d b T hT] at hrun
  obtain rfl := Option.some.inj hrun
  rw [emit_point, point_setPoint_same _ _ _ (destReg_lt d), selectNeg2_eq, selectIndex2_eq, toNat_xor_eq]

/-- R222: the point SEL4 leaves, its index and sign bit by bit. -/
theorem point_of_performSel4 (hT : ∀ j < 8, b.point j = some (T j)) (hrun : performSel4 c i d b = some b') :
    b'.point (destReg d) =
      some (condNeg c (!b.u0.getLsbD i)
        (T ((b.u1.getLsbD i).toNat + 2 * (b.u2.getLsbD i).toNat + 4 * (b.u3.getLsbD i).toNat))) := by
  rw [performSel4_eq c i d b T hT] at hrun
  obtain rfl := Option.some.inj hrun
  rw [emit_point, point_setPoint_same _ _ _ (destReg_lt d), selectNeg4_eq, selectIndex4_eq]

end SelectedPoint

section CommandsOnX

/-- The commands that read X and write nothing else (R223, R224, R227, R228). -/
def xCommands : List Instr := [.dbl, .add, .correct, .cofactor]

theorem xCommands_shape : ∀ i ∈ xCommands,
    wellFormed i = true ∧ dropsPoints i = false ∧ regsWritten i = [] ∧ pointsWritten i = [12] ∧ 12 ∈ reads i := by
  decide

/-- A command on X leaves there the point of its last capability call. -/
theorem exec_xCommand {i : Instr} (hi : i ∈ xCommands) {s : State} (hr : ∀ n ∈ reads i, s.valid n = true)
    {b : Block Config.Ext} {z : Config.Ext} {ev : TraceEvent}
    (hlast : perform Config.params i s.toBlock.clearTrace = some (b.putPoint 12 z ev)) :
    ∃ t, exec i s = .next t ∧ EndsWith .ok s t ∧ t.point 12 = some z ∧ FrameExcept [.status] [12] s t := by
  obtain ⟨hw, hdrops, hregs, hpoints, hx⟩ := xCommands_shape i hi
  obtain ⟨b', hrun, hfills, hexec, hends⟩ := exec_fills hw hdrops hr
  rw [hregs, hpoints] at hfills
  obtain rfl := Option.some.inj (hlast.symm.trans hrun)
  exact ⟨_, hexec, hends, point_setPoint_same _ _ _ (by decide),
    hfills.frameExcept_of_valid .ok fun n hn => by rw [List.mem_singleton.1 hn, hr 12 hx]⟩

end CommandsOnX

/-- R229: the result registers AFFINE leaves. -/
theorem result_of_performAffine {Ext : Type} {c : Params Ext} {b b' : Block Ext} {n : Nat} {x : Ext}
    (hx : b.point n = some x) (hrun : performAffine c n b = some b') : (⟨b'.rx, b'.ry⟩ : Aff) = c.affine x := by
  rw [performAffine, hx] at hrun
  obtain rfl := Option.some.inj hrun
  rfl

end Sys2Proof.Machine

/-! CERTIFICATE. The selects, the ladders' frame and the commands on X (R220 to R229). -/

namespace Sys2Proof.Machine

/-- Settles O29: on a full table the scan finds the entry, and only the destination is filled. -/
theorem sel2WritesSignedEntry : Obligations.Sel2WritesSignedEntry := by
  intro s i d T hT
  obtain ⟨b', hrun, hfills, hexec, hends⟩ := exec_fills (i := .sel2 i d) rfl rfl (valid_of_table_points hT)
  have hpoint := point_of_performSel2 (b := s.toBlock.clearTrace) hT hrun
  rw [condNeg_not] at hpoint
  exact ⟨_, hexec, hends, hpoint, hfills.toEffect.frameExcept .ok (List.Subset.refl _)⟩

/-- Settles O30: as for SEL2, with SEL4's index and sign. -/
theorem sel4WritesSignedEntry : Obligations.Sel4WritesSignedEntry := by
  intro s i d T hT
  obtain ⟨b', hrun, hfills, hexec, hends⟩ := exec_fills (i := .sel4 i d) rfl rfl (valid_of_table_points hT)
  have hpoint := point_of_performSel4 (b := s.toBlock.clearTrace) hT hrun
  rw [condNeg_not] at hpoint
  exact ⟨_, hexec, hends, hpoint, hfills.toEffect.frameExcept .ok (List.Subset.refl _)⟩

/-- Settles O36: a ladder's commands fill X and Y only. -/
theorem laddersWriteOnlyXAndY : Obligations.LaddersWriteOnlyXAndY := by
  intro s i hi ht
  have hr : ∀ n ∈ List.range 8, s.valid n = true := fun n hn => ht n (List.mem_range.1 hn)
  obtain ⟨hw, hdrops, hregs, hpoints, hreads⟩ : wellFormed i = true ∧ dropsPoints i = false ∧ regsWritten i = [] ∧
      pointsWritten i = [12, 13] ∧ reads i = List.range 8 := by
    rcases hi with rfl | rfl <;> decide
  obtain ⟨b', -, hfills, hexec, hends⟩ := exec_fills hw hdrops (hreads ▸ hr)
  rw [hregs, hpoints] at hfills
  exact ⟨_, hexec, hends, hfills.valid 12 (by decide), hfills.valid 13 (by decide),
    hfills.toEffect.frameExcept .ok (List.Subset.refl _)⟩

/-- Settles O32: the rule of each finds its operands and ends with the call that writes X. -/
theorem dblAddCofactorWriteX : Obligations.DblAddCofactorWriteX := by
  intro s x y hx
  have h12 : s.valid 12 = true := (valid_iff s.toBlock 12).2 ⟨x, hx⟩
  refine ⟨exec_xCommand (i := .dbl) (by decide) (by simpa [reads]) (bind_eq_some_of hx rfl),
    exec_xCommand (i := .cofactor) (by decide) (by simpa [reads]) (bind_eq_some_of hx rfl), fun hy => ?_⟩
  have h13 : s.valid 13 = true := (valid_iff s.toBlock 13).2 ⟨y, hy⟩
  exact exec_xCommand (i := .add) (by decide) (by simp [reads, h12, h13])
    (bind_eq_some_of hx (bind_eq_some_of hy rfl))

/-- Settles O33: the rule ends with the conditional addition into X. -/
theorem correctAddsE0OnLsb : Obligations.CorrectAddsE0OnLsb := by
  intro s x e0 hx he0
  have h12 : s.valid 12 = true := (valid_iff s.toBlock 12).2 ⟨x, hx⟩
  have h8 : s.valid 8 = true := (valid_iff s.toBlock 8).2 ⟨e0, he0⟩
  exact exec_xCommand (i := .correct) (by decide) (by simp [reads, h8, h12])
    (bind_eq_some_of hx (bind_eq_some_of he0 rfl))

/-- Settles O34: R229's rule on any point register that is not reserved. -/
theorem affineWritesResult : Obligations.AffineWritesResult := by
  intro s n x hn hx
  have hw : wellFormed (.affine n) = true := decide_eq_true (BitVec.lt_def.2 hn)
  have hvalid : s.valid n.toNat = true := (valid_iff s.toBlock n.toNat).2 ⟨x, hx⟩
  obtain ⟨b', hrun, hfills, hexec, hends⟩ := exec_fills (i := .affine n) hw rfl (by simpa [reads])
  have hresult := result_of_performAffine (b := s.toBlock.clearTrace) hx hrun
  exact ⟨_, hexec, hends, hresult,
    hfills.toEffect.frameExcept_of_noPoints .ok (List.perm_append_singleton _ _).symm.subset⟩

end Sys2Proof.Machine

/-! SUPPORT. MUL_GEN beside MUL with P = G (R261, R267): command by command the two runs differ in PX and PY, which no
command before or after BASE reads, and in the source their Morph events name. -/

namespace Sys2Proof.Machine

section OnGenerator

variable {Ext : Type} {c : Params Ext} {b : Block Ext}

/-- The block with G in PX and PY. -/
def Block.withGenerator (c : Params Ext) (b : Block Ext) : Block Ext :=
  { b with px := c.generator.x, py := c.generator.y }

@[simp] theorem withGenerator_point (n : Nat) : (b.withGenerator c).point n = b.point n := rfl
@[simp] theorem withGenerator_table : (b.withGenerator c).table = b.table := rfl
@[simp] theorem withGenerator_u0 : (b.withGenerator c).u0 = b.u0 := rfl
@[simp] theorem withGenerator_u1 : (b.withGenerator c).u1 = b.u1 := rfl
@[simp] theorem withGenerator_sgn : (b.withGenerator c).sgn = b.sgn := rfl
@[simp] theorem settled_withGenerator : (b.withGenerator c).settled = b.settled.withGenerator c := rfl
@[simp] theorem withGenerator_clearTrace : (b.withGenerator c).clearTrace = b.clearTrace.withGenerator c := rfl
@[simp] theorem withGenerator_setPoint (n : Nat) (x : Ext) :
    (b.withGenerator c).setPoint n x = (b.setPoint n x).withGenerator c := rfl

/-- P of the one block is G of the other (R164). -/
theorem affineSource_withGenerator : (b.withGenerator c).affineSource c 0#2 = b.affineSource c 2#2 := rfl

/-- With G in PX and PY, i does what j does without, but for those two registers and the trace. -/
def AgreeOnGenerator (c : Params Ext) (i j : Instr) : Prop :=
  ∀ b, (perform c i (b.withGenerator c)).map Block.settled =
    (perform c j b).map fun d => (d.withGenerator c).settled

/-- Commands that agree one by one agree in sequence: no rule sees the trace of those before it. -/
theorem performAll_agree {l m : List Instr} (h : List.Forall₂ (AgreeOnGenerator c) l m) {a b : Block Ext}
    (hab : a.settled = (b.withGenerator c).settled) :
    (performAll c l a).map Block.settled = (performAll c m b).map fun d => (d.withGenerator c).settled := by
  induction h generalizing a b with
  | nil => exact congrArg some hab
  | @cons i j l m hij _ ih =>
    have hstep := ((perform_ignoresLifecycle i).congr hab).trans (hij b)
    rw [performAll, performAll]
    cases hb : perform c j b with
    | none =>
      rw [hb, Option.map_none, Option.map_eq_none_iff] at hstep
      rw [hstep]
      rfl
    | some d =>
      rw [hb, Option.map_some, Option.map_eq_some_iff] at hstep
      obtain ⟨d', ha, hd⟩ := hstep
      rw [ha]
      exact ih hd

theorem agreeOnGenerator_decomp (s : ScalarSel) : AgreeOnGenerator c (.decomp s) (.decomp s) := by
  intro b
  cases s <;> rfl

theorem agreeOnGenerator_base (e : BitVec 2) (phi : Bool) : AgreeOnGenerator c (.base e phi 0) (.base e phi 2) := by
  intro b
  cases phi <;> simp [perform, performBase, affineSource_withGenerator]

theorem agreeOnGenerator_gent2 : AgreeOnGenerator c .gent2 .gent2 := by
  intro b
  cases h8 : b.point 8 <;> cases h9 : b.point 9 <;> simp [perform, performGent2, h8, h9]

theorem agreeOnGenerator_recode2 : AgreeOnGenerator c .recode2 .recode2 := by
  intro b
  simp only [perform, performRecode2_eq, Option.map_some, Block.withGenerator]

theorem agreeOnGenerator_sel2 (i : BitVec 7) (d : PointDest) : AgreeOnGenerator c (.sel2 i d) (.sel2 i d) := by
  intro b
  cases ht : b.table with
  | none => simp [perform, performSel2, ht]
  | some table =>
    have hfst := scan_fst_congr (selectIndex2 b.u0 b.u1 i.toNat) table (b.withGenerator c) b
    cases hx : (scan (selectIndex2 b.u0 b.u1 i.toNat) table b).1 <;>
      simp [perform, performSel2, ht, hfst, hx, settled_scan]

theorem agreeOnGenerator_dbl : AgreeOnGenerator c .dbl .dbl := by
  intro b
  cases hx : b.point 12 <;> simp [perform, performDbl, hx]

theorem agreeOnGenerator_add : AgreeOnGenerator c .add .add := by
  intro b
  cases hx : b.point 12 <;> cases hy : b.point 13 <;> simp [perform, performAdd, hx, hy]

theorem agreeOnGenerator_correct : AgreeOnGenerator c .correct .correct := by
  intro b
  cases hx : b.point 12 <;> cases h8 : b.point 8 <;> simp [perform, performCorrect, hx, h8]

theorem agreeOnGenerator_cofactor : AgreeOnGenerator c .cofactor .cofactor := by
  intro b
  cases hx : b.point 12 <;> simp [perform, performCofactor, hx]

theorem agreeOnGenerator_affine (n : BitVec 4) : AgreeOnGenerator c (.affine n) (.affine n) := by
  intro b
  cases hx : b.point n.toNat with
  | none => simp [perform, performAffine, hx]
  | some x =>
    simp only [perform, performAffine, withGenerator_point, hx, Option.bind_eq_bind, Option.bind_some]
    rfl

theorem agreeOnGenerator_scrub : AgreeOnGenerator c .scrub .scrub := fun _ => rfl

theorem agreeOnGenerator_ladder2 : AgreeOnGenerator c .ladder2 .ladder2 := by
  have hcommands : ∀ i ∈ ladder2Commands, AgreeOnGenerator c i i := by
    refine List.forall_mem_cons.2 ⟨agreeOnGenerator_sel2 _ _, List.forall_mem_flatMap.2 fun j _ => ?_⟩
    simp [agreeOnGenerator_sel2, agreeOnGenerator_dbl, agreeOnGenerator_add]
  intro b
  simp only [perform, performLadder2_eq]
  exact performAll_agree (List.forall₂_same.2 hcommands) rfl

/-- R261: MUL's commands on P agree with MUL_GEN's on G. -/
theorem agreeOnGenerator_mul : AgreeOnGenerator c .mul .mulGen := by
  intro b
  simp only [perform, performMul, performMulGen, performMulOn_eq]
  exact performAll_agree (.cons (agreeOnGenerator_decomp _) <| .cons (agreeOnGenerator_base _ _) <|
    .cons (agreeOnGenerator_base _ _) <| .cons agreeOnGenerator_gent2 <| .cons agreeOnGenerator_recode2 <|
    .cons agreeOnGenerator_ladder2 <| .cons agreeOnGenerator_correct <| .cons agreeOnGenerator_cofactor <|
    .cons (agreeOnGenerator_affine _) <| .cons agreeOnGenerator_scrub .nil) rfl

/-- R267 before the result is read: both commands complete, on blocks that differ in PX, PY and the trace. -/
theorem execute_mul_withGenerator (c : Params Ext) (b : Block Ext) :
    ∃ d d', execute c .mulGen b = finish .ok d ∧ execute c .mul (b.withGenerator c) = finish .ok d' ∧
      d'.settled = (d.withGenerator c).settled := by
  obtain ⟨d, hgen, -⟩ := performMulOn_clears (c := c) (b := b.clearTrace) 2
  replace hgen : perform c .mulGen b.clearTrace = some d := hgen
  have hagree := agreeOnGenerator_mul (c := c) b.clearTrace
  rw [hgen, Option.map_some, Option.map_eq_some_iff, ← withGenerator_clearTrace] at hagree
  obtain ⟨d', hmul, hsettled⟩ := hagree
  exact ⟨d, d', execute_ok rfl rfl hgen, execute_ok rfl rfl hmul, hsettled⟩

end OnGenerator

end Sys2Proof.Machine

/-! CERTIFICATE. MUL_GEN is MUL of the generator (R261, R267). -/

namespace Sys2Proof.Machine

/-- Settles O42: the two runs agree command by command, so the completed blocks differ in PX, PY and the trace only. -/
theorem mulGenIsMulOfGenerator : Obligations.MulGenIsMulOfGenerator := by
  intro Ext c b
  obtain ⟨d, d', hgen, hmul, hsettled⟩ := execute_mul_withGenerator c b
  rw [Block.withGenerator] at hmul
  rw [hgen, hmul]
  exact ⟨(congrArg Block.rx hsettled.symm :), (congrArg Block.ry hsettled.symm :),
    (congrArg Block.status hsettled.symm :)⟩

end Sys2Proof.Machine

/-! CERTIFICATE. The reset input (R310, R311). -/

namespace Sys2Proof.Machine

/-- R310: a scheduled reset input is what the step answers, with the event taken off the schedule; neither BUSY nor a
pending command is asked. -/
theorem step_reset {s : State} {rest : List Event} (hs : s.schedule = .reset :: rest) :
    step s = .next (resetInput { s with schedule := rest }) := by
  simp only [step, hs, stepEvent]

/-- Settles O47: the step is the reset input, which replaces the block and keeps the schedule and the count of draws. -/
theorem resetInputFromAnyState : Obligations.ResetInputFromAnyState :=
  fun s rest hs => ⟨resetInput { s with schedule := rest }, step_reset hs, rfl, rfl, rfl⟩

end Sys2Proof.Machine
